-- ==== Sys2Proof/Word.lean ====
section
/-! DEFINITION. The word types of the framer: bytes, 16-bit patterns and baud indices. -/

namespace Sys2Proof

/-- A byte, `0x00` to `0xFF` (00_scope.md R10). -/
abbrev Byte := BitVec 8

/-- A 16-bit pattern (`tc16`, `u16` of 00_scope.md R10; `ST_DELAY_US` of 10_state.md R41). -/
abbrev Half := BitVec 16

/-- A baud index, 0 to 11 (10_state.md R30): the legal values of the 4-bit registers `BAUD` and
`CUR_BAUD` (R32, R33) and of the operands of `uOPEN`, `uBAUD` and `SWEEP` (log 17). -/
abbrev BaudIdx := Fin 12

end Sys2Proof
end

