-- ==== Sys2Proof/Config.lean ====
section
/-! DEFINITION. What the platform fixes: the parameters of 00_scope.md R6 that have a default, the open
parameters as constants with no body, and the free values. -/

namespace Sys2Proof

/-- The parameters of 00_scope.md R6 that a model takes as arguments with a default (log 7). -/
structure Params where
  /-- `T_COMMIT_MS`, the EEPROM write window (decision D13). -/
  tCommitMs : Nat := 100
  /-- `T_REBOOT_MS`, the reboot settle window (decision D13). -/
  tRebootMs : Nat := 1000
  /-- `RESET_LEN`, the `Length` byte of FRESET (decision D16). -/
  resetLen : Byte := 0xFF
  /-- `SESSION_ID`, the ID in the session's frames (decision D6). -/
  sessionId : Byte := 0xFF
  /-- `STATUS_LEN`, the `Length` of the status read (decision D7). -/
  statusLen : Byte := 4
  /-- `ANGLE_LEN`, the `Length` of RDANGLE (decision D8). -/
  angleLen : Byte := 2
deriving DecidableEq, Repr

/-- The defaults of 00_scope.md R6. -/
def Params.default : Params := {}

/-- The constraints R6 puts on the parameters: `T_COMMIT_MS >= 100`, `RESET_LEN` is `0xFF` or `0x00`,
`SESSION_ID` is 1 to 127 or 255. -/
def Params.legal (p : Params) : Bool :=
  decide (100 ≤ p.tCommitMs) && (p.resetLen == 0xFF || p.resetLen == 0x00) &&
    ((decide (1 ≤ p.sessionId.toNat) && decide (p.sessionId.toNat ≤ 127)) || p.sessionId == 0xFF)

/-- The registers that can come to hold no value while the machine runs (10_state.md R45); each has free
values of its own (log 4). -/
inductive FreeReg where
  | txbuf
  | rxbuf
  | cmdAddr
  | cmdLen
  | cmdAngle
  | cmdTime
  | rdId
  | rdFlags
  | rdAddr
  | rdLen
  | rdCount
  | rdData
deriving DecidableEq, Repr

namespace Config

/-- DESIGN CHOICE (log 4). The free value of a byte that "holds no value" (10_state.md R45,
93_implementation_defined.md U9): of the register, at the counter, at the index (0 for a register of
one byte). No two of them are related. -/
opaque freeByte : FreeReg → Nat → Nat → Byte

/-- DESIGN CHOICE (log 4). The free value of a 16-bit register that "holds no value", at the counter. -/
opaque freeHalf : FreeReg → Nat → Half

/-- `T_RX_TIMEOUT_MS` less one: the parameter is OPEN and greater than 0 (00_scope.md R6, log 7). -/
opaque rxTimeoutPred : Nat

/-- `T_RX_TIMEOUT_MS`, the receive deadline (41_link.md R158), greater than 0. -/
def tRxTimeoutMs : Nat := rxTimeoutPred + 1

/-- `DIR_TX_LEVEL`, the pin level that means transmit: OPEN (10_state.md R34, log 7). -/
opaque dirTxLevel : Bool

/-- `HOST_MAP`, the host register number a bus address reaches: OPEN (10_state.md R44, log 7). -/
opaque hostMap : Nat → Nat

end Config

end Sys2Proof
end

