-- ==== Sys2Proof/Machine/Constants.lean ====
section
/-! DEFINITION. The constants D0 fixes (00_scope.md R6): headers, flags, addresses, the baud table. -/

namespace Sys2Proof.Machine

/-- `H_REQ` (30_encoding.md R90). -/
def hReq1 : Byte := 0xFA
def hReq2 : Byte := 0xAF

/-- `H_RSP` (30_encoding.md R91). -/
def hRsp1 : Byte := 0xFD
def hRsp2 : Byte := 0xDF

/-- `BROADCAST_ID` (30_encoding.md R94). -/
def broadcastId : Byte := 0xFF

/-- The operation classes (30_encoding.md R95). -/
def fWrite : Byte := 0x00
def fRead : Byte := 0x0F
def fReset : Byte := 0x10
def fReboot : Byte := 0x20
def fRom : Byte := 0x40

/-- The servo register addresses D0 names (20_memory.md R62); `aCtrl` is the pseudo-address of the
control commands. -/
def aId : Byte := 0x04
def aRev : Byte := 0x05
def aBaud : Byte := 0x06
def aDelay : Byte := 0x07
def aGoal : Byte := 0x1E
def aTorque : Byte := 0x24
def aAngle : Byte := 0x2A
def aCtrl : Byte := 0xFF

/-- `STATUS_ADDR` (00_scope.md R6). -/
def statusAddr : Byte := aId

/-- `BAUD_TABLE` (10_state.md R30), in bit/s. -/
def baudRate (i : BaudIdx) : Nat :=
  #v[9600, 14400, 19200, 28800, 38400, 57600, 76800, 115200, 153600, 230400, 460800, 691200][i]

/-- `DEFAULT_BAUD_IDX` (10_state.md R31). -/
def defaultBaudIdx : BaudIdx := 7

/-- The twelve indices in ascending order, as the sweep visits them (43_sweep.md R221). -/
def baudIndices : List BaudIdx := [0, 1, 2, 3, 4, 5, 6, 7, 8, 9, 10, 11]

/-- `DELAY_BASE_US`, `DELAY_STEP_US` (00_scope.md R6). -/
def delayBaseUs : Half := 100
def delayStepUs : Half := 50

end Sys2Proof.Machine
end

