-- ==== Sys2Proof/Machine/Frame.lean ====
section
/-! DEFINITION. The Frame Codec as pure functions (40_codec.md): checksum, frame building, body
verification. -/

namespace Sys2Proof.Machine

/-- `XSUM` (40_codec.md R130), `xor8` of 00_scope.md R10. -/
def xsum : List Byte → Byte
  | [] => 0
  | b :: s => b ^^^ xsum s

/-- The bytes of a frame from `ID` to `Checksum` (30_encoding.md R90, R100). -/
def frameBody (id flags addr len count : Byte) (payload : List Byte) : List Byte :=
  let covered := [id, flags, addr, len, count] ++ payload
  covered ++ [xsum covered]

/-- `ENCODE` (40_codec.md R131): a request frame. -/
def encodeFrame (id flags addr len count : Byte) (payload : List Byte) : List Byte :=
  [hReq1, hReq2] ++ frameBody id flags addr len count payload

/-- A response frame (30_encoding.md R91). -/
def responseFrame (id flags addr len count : Byte) (payload : List Byte) : List Byte :=
  [hRsp1, hRsp2] ++ frameBody id flags addr len count payload

/-- `encode_ok` (40_codec.md R132): the well-formed arguments of ENCODE. -/
def encodeOk (flags len count : Byte) (payload : List Byte) : Bool :=
  if flags = fWrite then decide (payload.length = len.toNat * count.toNat) else payload.isEmpty

/-- The fields DECODE returns (40_codec.md R133). -/
structure Fields where
  id : Byte
  flags : Byte
  addr : Byte
  len : Byte
  count : Byte
  payload : List Byte
deriving DecidableEq, Repr

/-- The results of DECODE (40_codec.md R133). -/
inductive DecodeResult where
  | ok (f : Fields)
  | checksumMismatch
  | malformed
deriving DecidableEq, Repr

/-- `DECODE` (40_codec.md R133): `Malformed` below six bytes; the XOR of all bytes but the last against
the last; then the fields. -/
def decodeBody (body : List Byte) : DecodeResult :=
  match body with
  | id :: flags :: addr :: len :: count :: b :: rest =>
    let tail := b :: rest
    let payload := tail.dropLast
    if xsum (id :: flags :: addr :: len :: count :: payload) = tail.getLastD 0 then
      .ok ⟨id, flags, addr, len, count, payload⟩
    else .checksumMismatch
  | _ => .malformed

end Sys2Proof.Machine
end

