-- ==== Sys2Proof/Syntax.lean ====
section
/-! DEFINITION. The instruction set as syntax: one constructor of `Instr` for every row of
spec/opcode_table.json, with the operands of 30_encoding.md R112. -/

namespace Sys2Proof

/-- The Servo Configuration Intent, the operand of `Start` (10_state.md R21). -/
structure Intent where
  tbaud : Byte
  sweep : Bool
  newid : Byte
  rot : Byte
  delay : Byte
  reset : Bool
  statusEn : Bool
deriving DecidableEq, Repr

/-- The operations of the framer, in the order of spec/opcode_table.json. -/
inductive Instr where
  /-- `ROMCOMMIT id` (42_commands.md R184). -/
  | romcommit (id : Byte)
  /-- `REBOOT id` (R185). -/
  | reboot (id : Byte)
  /-- `FRESET id` (R186). -/
  | freset (id : Byte)
  /-- `SETID id, newid` (R187). -/
  | setid (id newid : Byte)
  /-- `SETREV id, r` (R188). -/
  | setrev (id r : Byte)
  /-- `SETBAUD id, idx` (R189). -/
  | setbaud (id idx : Byte)
  /-- `SETDELAY id, c` (R190). -/
  | setdelay (id c : Byte)
  /-- `TORQUE id, en` (R191). -/
  | torque (id en : Byte)
  /-- `MOVE id, angle, time` (R192): the angle is an integer, since the host may present one outside
  16 bits, which is refused (95_test_vectors.md F12; log 20). -/
  | move (id : Byte) (angle : Int) (time : Half)
  /-- `RDSTAT id` (R193). -/
  | rdstat (id : Byte)
  /-- `RDANGLE id` (R194). -/
  | rdangle (id : Byte)
  /-- `WRITE id, addr, len, data` (R182). -/
  | write (id addr len : Byte) (data : List Byte)
  /-- `READ id, addr, len` (R181). -/
  | read (id addr len : Byte)
  /-- A response frame on the line (30_encoding.md R91), its checksum right by construction (log 9). -/
  | response (id flags addr len count : Byte) (payload : List Byte)
  /-- `XSUM s` (40_codec.md R130). -/
  | xsum (s : List Byte)
  /-- `ENCODE id, flags, addr, len, count, payload` (40_codec.md R131). -/
  | encode (id flags addr len count : Byte) (payload : List Byte)
  /-- `DECODE body` (40_codec.md R133). -/
  | decode (body : List Byte)
  /-- `REOPEN i`, the micro-operation `uOPEN(i)` (41_link.md R150). -/
  | reopen (i : BaudIdx)
  /-- `SEND pkt`, the micro-operation `uSEND(pkt)` (41_link.md R151). -/
  | send (pkt : List Byte)
  /-- `RECEIVE L`, the micro-operation `uRECV(L)` (41_link.md R155). -/
  | receive (len : Byte)
  /-- `WAIT ms`, the micro-operation `uWAIT(ms)` (41_link.md R160). -/
  | wait (ms : Nat)
  /-- `PERSIST id` (42_commands.md R195). -/
  | persist (id : Byte)
  /-- `SWEEP target` (43_sweep.md R220). -/
  | sweep (target : BaudIdx)
  /-- `SESSION intent`, called by the host as `Start(intent)` (44_session.md R230). -/
  | session (c : Intent)
deriving DecidableEq, Repr

end Sys2Proof
end

