-- ==== Sys2Proof/Machine/Operands.lean ====
section
/-! DEFINITION. Operand forms: which values an operand may take (42_commands.md), and how operands
become payload bytes (30_encoding.md R103 to R110). -/

namespace Sys2Proof.Machine

/-! ### Legal operand values -/

/-- `valid_id` (42_commands.md R183). -/
def validId (id : Byte) : Bool :=
  (decide (1 ≤ id.toNat) && decide (id.toNat ≤ 127)) || id == broadcastId

/-- `newid` of SETID: 1 to 127 (42_commands.md R187). -/
def newIdInRange (v : Byte) : Bool := decide (1 ≤ v.toNat) && decide (v.toNat ≤ 127)

/-- `r` of SETREV: 0 or 1 (R188). -/
def rotInRange (r : Byte) : Bool := decide (r.toNat ≤ 1)

/-- `idx` of SETBAUD: 0 to 11 (R189). -/
def idxInRange (i : Byte) : Bool := decide (i.toNat ≤ 11)

/-- `c` of SETDELAY: 0 to 127 (R190). -/
def delayInRange (c : Byte) : Bool := decide (c.toNat ≤ 127)

/-- `en` of TORQUE: 0 or 1 (R191). -/
def torqueInRange (en : Byte) : Bool := decide (en.toNat ≤ 1)

/-- `angle` of MOVE: -32768 to 32767 tenths of a degree (R192). -/
def angleInRange (a : Int) : Bool := decide (-32768 ≤ a) && decide (a ≤ 32767)

/-- `intent_valid` (10_state.md R23). -/
def intentValid (c : Intent) : Bool := decide (c.tbaud.toNat ≤ 11) && decide (c.newid.toNat ≤ 127)

/-- The baud index a byte names; `TBAUD <= 11` has been tested where this is used (44_session.md R230). -/
def baudIdxOf (b : Byte) : BaudIdx := Fin.ofNat 12 b.toNat

/-- A baud index as the byte the wire carries (30_encoding.md R109). -/
def baudByte (i : BaudIdx) : Byte := BitVec.ofNat 8 i.val

/-! ### Payload assembly -/

/-- `tc16` (00_scope.md R10): the two's-complement pattern; defined by the spec on
-32768 .. 32767 only (log 20). -/
def tc16 (n : Int) : Half := BitVec.ofInt 16 n

/-- `le16` (00_scope.md R10): low byte first. -/
def le16 (v : Half) : List Byte := [v.extractLsb' 0 8, v.extractLsb' 8 8]

/-- The 16-bit pattern of two payload bytes, low byte first (20_memory.md R69). -/
def ofLe16 (lo hi : Byte) : Half := hi ++ lo

/-- Reading an angle back (30_encoding.md R106): `sext_16`. -/
def angleOf (lo hi : Byte) : Int := (ofLe16 lo hi).toInt

/-- MOVE's payload (30_encoding.md R104). -/
def movePayload (angle : Int) (time : Half) : List Byte := le16 (tc16 angle) ++ le16 time

/-- `delay_us` (30_encoding.md R108), at most 12850. -/
def delayUs (c : Byte) : Half := delayBaseUs + delayStepUs * c.setWidth 16

end Sys2Proof.Machine
end

