-- ==== Sys2Proof/WellFormed.lean ====
section
/-! DEFINITION. Well-formed instructions: every operand at a value its rule gives it. A command whose
operand is not is not refused by this check but by the machine (42_commands.md R180). -/

namespace Sys2Proof

open Sys2Proof.Machine

/-- The operands have the values the instruction's rule admits, under the parameters `p`. -/
def Instr.wf (p : Params) (i : Instr) : Bool :=
  match i with
  | .romcommit id => validId id
  | .reboot id => validId id
  | .freset id => validId id
  | .setid id newid => validId id && newIdInRange newid
  | .setrev id r => validId id && rotInRange r
  | .setbaud id idx => validId id && idxInRange idx
  | .setdelay id c => validId id && delayInRange c
  | .torque id en => validId id && torqueInRange en
  | .move id angle _ => validId id && angleInRange angle
  | .rdstat id => validId id
  | .rdangle id => validId id
  | .write id _ len data => validId id && decide (data.length = len.toNat)
  | .read id _ _ => validId id
  | .response _ _ _ _ _ payload => decide (payload.length ≤ 255)
  | .xsum _ => true
  | .encode _ _ _ _ _ _ => true
  | .decode _ => true
  | .reopen _ => true
  | .send pkt => decide (8 ≤ pkt.length) && decide (pkt.length ≤ 263)
  | .receive _ => true
  | .wait ms => decide (ms = p.tCommitMs) || decide (ms = p.tRebootMs)
  | .persist id => validId id
  | .sweep _ => true
  | .session c => intentValid c

/-- The operations the host may call as `Cmd` (30_encoding.md R112). -/
def Instr.isCommand (i : Instr) : Bool :=
  match i with
  | .romcommit _ | .reboot _ | .freset _ | .setid _ _ | .setrev _ _ | .setbaud _ _ | .setdelay _ _
  | .torque _ _ | .move _ _ _ | .rdstat _ | .rdangle _ | .write _ _ _ _ | .read _ _ _
  | .persist _ => true
  | .response _ _ _ _ _ _ | .xsum _ | .encode _ _ _ _ _ _ | .decode _ | .reopen _ | .send _
  | .receive _ | .wait _ | .sweep _ | .session _ => false

end Sys2Proof
end

