-- ==== Sys2Proof/Decode.lean ====
section
/-! DEFINITION. From the bytes of a frame to an instruction and back (30_encoding.md R90 to R92, R101,
R111, R116). A decoder of requests is a test harness's or a servo model's (R101); the framer's own
receive path is Machine/Engine.lean. -/

namespace Sys2Proof

open Sys2Proof.Machine

/-- Why a byte sequence is no frame of 30_encoding.md R111 or R91. -/
inductive DecodeError where
  /-- Fewer than the eight bytes of the shortest frame (R101). -/
  | tooShort
  /-- The first two bytes are neither `FA AF` nor `FD DF` (R90, R91). -/
  | badHeader
  /-- The last byte is not the checksum (R100). -/
  | badChecksum
  /-- A request whose payload is not `Length * Count` bytes (R99, R101), or a response with more than
  255 payload bytes. -/
  | badLength
  /-- A request whose `Flags`, `Address`, `Length`, `Count` are no row of R111 (R95, R98, R114). -/
  | reserved
deriving DecidableEq, Repr

/-- The command whose row of R111 a request's fields match: the named commands first, WRITE and READ
last (R116). -/
def classify (p : Params) (f : Fields) : Except DecodeError Instr :=
  if f.flags = fRom ∧ f.addr = aCtrl ∧ f.len = 0 ∧ f.count = 0 then .ok (.romcommit f.id)
  else if f.flags = fReboot ∧ f.addr = aCtrl ∧ f.len = 0 ∧ f.count = 0 then .ok (.reboot f.id)
  else if f.flags = fReset ∧ f.addr = aCtrl ∧ f.len = p.resetLen ∧ f.count = 0 then
    .ok (.freset f.id)
  else if f.flags = fWrite ∧ f.count = 1 then
    match f.payload with
    | [v] =>
      if f.addr = aId then .ok (.setid f.id v)
      else if f.addr = aRev then .ok (.setrev f.id v)
      else if f.addr = aBaud then .ok (.setbaud f.id v)
      else if f.addr = aDelay then .ok (.setdelay f.id v)
      else if f.addr = aTorque then .ok (.torque f.id v)
      else .ok (.write f.id f.addr f.len [v])
    | [aL, aH, tL, tH] =>
      if f.addr = aGoal then .ok (.move f.id (angleOf aL aH) (ofLe16 tL tH))
      else .ok (.write f.id f.addr f.len [aL, aH, tL, tH])
    | data => .ok (.write f.id f.addr f.len data)
  else if f.flags = fRead ∧ f.count = 0 then
    if f.addr = statusAddr ∧ f.len = p.statusLen then .ok (.rdstat f.id)
    else if f.addr = aAngle ∧ f.len = p.angleLen then .ok (.rdangle f.id)
    else .ok (.read f.id f.addr f.len)
  else .error .reserved

/-- The instruction whose frame the bytes are, or why they are none. The checksum is verified as on
receipt (R100); a request's payload must have `Length * Count` bytes, a response's is delimited by the
sequence itself (R101, R134). -/
def decode (p : Params) (bs : List Byte) : Except DecodeError Instr :=
  match bs with
  | h1 :: h2 :: body =>
    match decodeBody body with
    | .malformed => .error .tooShort
    | .checksumMismatch => .error .badChecksum
    | .ok f =>
      if h1 = hReq1 ∧ h2 = hReq2 then
        if f.payload.length = f.len.toNat * f.count.toNat then classify p f else .error .badLength
      else if h1 = hRsp1 ∧ h2 = hRsp2 then
        if f.payload.length ≤ 255 then
          .ok (.response f.id f.flags f.addr f.len f.count f.payload)
        else .error .badLength
      else .error .badHeader
  | _ => .error .tooShort

/-- The frame of an instruction (30_encoding.md R111, R91); none for the operations the table gives no
encoding. -/
def encode (p : Params) (i : Instr) : Option (List Byte) :=
  match i with
  | .romcommit id => some (encodeFrame id fRom aCtrl 0 0 [])
  | .reboot id => some (encodeFrame id fReboot aCtrl 0 0 [])
  | .freset id => some (encodeFrame id fReset aCtrl p.resetLen 0 [])
  | .setid id newid => some (encodeFrame id fWrite aId 1 1 [newid])
  | .setrev id r => some (encodeFrame id fWrite aRev 1 1 [r])
  | .setbaud id idx => some (encodeFrame id fWrite aBaud 1 1 [idx])
  | .setdelay id c => some (encodeFrame id fWrite aDelay 1 1 [c])
  | .torque id en => some (encodeFrame id fWrite aTorque 1 1 [en])
  | .move id angle time => some (encodeFrame id fWrite aGoal 4 1 (movePayload angle time))
  | .rdstat id => some (encodeFrame id fRead statusAddr p.statusLen 0 [])
  | .rdangle id => some (encodeFrame id fRead aAngle p.angleLen 0 [])
  | .write id addr len data => some (encodeFrame id fWrite addr len 1 data)
  | .read id addr len => some (encodeFrame id fRead addr len 0 [])
  | .response id flags addr len count payload =>
    some (responseFrame id flags addr len count payload)
  | .xsum _ | .encode _ _ _ _ _ _ | .decode _ | .reopen _ | .send _ | .receive _ | .wait _
  | .persist _ | .sweep _ | .session _ => none

/-- The instruction is spelt by the most specific name its frame has (30_encoding.md R116): a WRITE or
READ whose fixed bytes are those of a named command decodes to that command. -/
def Instr.mostSpecific (p : Params) (i : Instr) : Bool :=
  match i with
  | .write _ addr len _ =>
    !(decide (len = 1) && (decide (addr = aId) || decide (addr = aRev) || decide (addr = aBaud) ||
        decide (addr = aDelay) || decide (addr = aTorque))) &&
      !(decide (len = 4) && decide (addr = aGoal))
  | .read _ addr len =>
    !(decide (addr = statusAddr) && decide (len = p.statusLen)) &&
      !(decide (addr = aAngle) && decide (len = p.angleLen))
  | _ => true

/-! ### The opcode table's words -/

/-- The head word of a frame (30_encoding.md R92): its first seven bytes, the first most significant. -/
def headWord (bs : List Byte) : Nat :=
  (bs.take 7).foldl (fun w b => w * 256 + b.toNat) 0

/-- The `k` bytes of a number, the most significant first (the order of R92). -/
def bytesOfWord (w : Nat) : Nat → List Byte
  | 0 => []
  | k + 1 => BitVec.ofNat 8 (w / 256 ^ k) :: bytesOfWord w k

/-- The frame of a table word (log 16). A word of seven bytes is a head word (R92): its payload of
`Length * Count` bytes is zero for a request, empty for a response, and the checksum is the byte R100
gives. A word of another length is laid out as it stands. -/
def frameOfTableWord (nbits w : Nat) : List Byte :=
  match bytesOfWord w (nbits / 8) with
  | [h1, h2, id, flags, addr, len, count] =>
    let payload := if h1 = hReq1 then List.replicate (len.toNat * count.toNat) 0 else []
    [h1, h2] ++ frameBody id flags addr len count payload
  | bs => bs

/-- The instruction the decoder reads from a word of spec/opcode_table.json, at the default parameters. -/
def decodeTableWord (nbits w : Nat) : Option Instr :=
  match decode Params.default (frameOfTableWord nbits w) with
  | .ok i => some i
  | .error _ => none

/-- The `mask` and `match` that spec/opcode_table.json gives a row (30_encoding.md R92), with
`RESET_LEN`, `STATUS_LEN` and `ANGLE_LEN` in the place of their defaults. -/
def tableRow (p : Params) (i : Instr) : Option (Nat × Nat) :=
  match i with
  | .romcommit _ => some (0xFFFF00FFFFFFFF, 0xFAAF0040FF0000)
  | .reboot _ => some (0xFFFF00FFFFFFFF, 0xFAAF0020FF0000)
  | .freset _ => some (0xFFFF00FFFFFFFF, 0xFAAF0010FF0000 + p.resetLen.toNat * 0x100)
  | .setid _ _ => some (0xFFFF00FFFFFFFF, 0xFAAF0000040101)
  | .setrev _ _ => some (0xFFFF00FFFFFFFF, 0xFAAF0000050101)
  | .setbaud _ _ => some (0xFFFF00FFFFFFFF, 0xFAAF0000060101)
  | .setdelay _ _ => some (0xFFFF00FFFFFFFF, 0xFAAF0000070101)
  | .torque _ _ => some (0xFFFF00FFFFFFFF, 0xFAAF0000240101)
  | .move _ _ _ => some (0xFFFF00FFFFFFFF, 0xFAAF00001E0401)
  | .rdstat _ => some (0xFFFF00FFFFFFFF, 0xFAAF000F040000 + p.statusLen.toNat * 0x100)
  | .rdangle _ => some (0xFFFF00FFFFFFFF, 0xFAAF000F2A0000 + p.angleLen.toNat * 0x100)
  | .write _ _ _ _ => some (0xFFFF00FF0000FF, 0xFAAF0000000001)
  | .read _ _ _ => some (0xFFFF00FF0000FF, 0xFAAF000F000000)
  | .response _ _ _ _ _ _ => some (0xFFFF0000000000, 0xFDDF0000000000)
  | .xsum _ | .encode _ _ _ _ _ _ | .decode _ | .reopen _ | .send _ | .receive _ | .wait _
  | .persist _ | .sweep _ | .session _ => none

end Sys2Proof
end

