-- ==== Sys2Proof/Machine/State.lean ====
section
/-! DEFINITION. The state of the framer (10_state.md R20) as plain data, the events of 00_scope.md R8,
and the state after reset (10_state.md R46). -/

namespace Sys2Proof.Machine

/-- `PHASE` (10_state.md R27). -/
inductive Phase where
  /-- `P_IDLE` -/
  | idle
  /-- `P_SESSION` -/
  | session
  /-- `P_READY` -/
  | ready
  /-- `P_CMD` -/
  | cmd
deriving DecidableEq, Repr

/-- `SEQ`, the Session Sequencer state and the tags of `PROG` (10_state.md R26). -/
inductive Seq where
  | idle
  | recoverySweep
  | baudOpen
  | factoryReset
  | setID
  | setReplyDelay
  | setRotationSense
  | torqueEnable
  | statusReport
  | done
deriving DecidableEq, Repr

/-- The micro-operations (00_scope.md R11). -/
inductive UOp where
  | uopen (i : BaudIdx)
  | usend (pkt : List Byte)
  | urecv (len : Byte)
  | uwait (ms : Nat)
  | ubaud (i : BaudIdx)
  | ureport
  | urdlatch
deriving DecidableEq, Repr

/-- `LST`, the link engine's state (10_state.md R35). -/
inductive LinkState where
  /-- `L_IDLE` -/
  | idle
  /-- `L_TX`: writing bytes -/
  | tx
  /-- `L_DRAIN`: waiting for `Drained` -/
  | drain
  /-- `L_HUNT1`: waiting for `0xFD` -/
  | hunt1
  /-- `L_HUNT2`: saw `0xFD`, waiting for `0xDF` -/
  | hunt2
  /-- `L_BODY`: staging the body -/
  | body
deriving DecidableEq, Repr

/-- `RXRES` (10_state.md R35): `RX_NONE`, `RX_OK`, `RX_TIMEOUT`. -/
inductive RxRes where
  | none
  | ok
  | timeout
deriving DecidableEq, Repr

/-- `DIR`, the direction line (10_state.md R34). -/
inductive Dir where
  | rx
  | tx
deriving DecidableEq, Repr

/-- `RXDL`, the receive deadline (10_state.md R38): its place in time is not architectural. -/
inductive Deadline where
  | stopped
  | running
deriving DecidableEq, Repr

/-- The error and refusal kinds (60_exceptions.md R260, R261). -/
inductive ErrKind where
  | checksumMismatch
  | headerSyncTimeout
  /-- Has a number, is never raised (R266). -/
  | noResponse
  | configRefused
  | commandRefused
deriving DecidableEq, Repr

/-- `LASTERR` (10_state.md R39). -/
structure LastErr where
  code : BitVec 3
  info : Byte
deriving DecidableEq, Repr

/-- `CMD.OP`: the operations the host may call as `Cmd` (10_state.md R24, 30_encoding.md R112). -/
inductive CmdOp where
  | read
  | write
  | romcommit
  | reboot
  | freset
  | setid
  | setrev
  | setbaud
  | setdelay
  | torque
  | move
  | rdstat
  | rdangle
  | persist
deriving DecidableEq, Repr

/-- `CMD` (10_state.md R24). `data` holds WRITE's data bytes and the one operand byte of SETID, SETREV,
SETBAUD, SETDELAY and TORQUE (log 13). -/
structure CmdRegs where
  op : CmdOp
  id : Byte
  addr : Byte
  len : Byte
  data : List Byte
  angle : Half
  time : Half
deriving DecidableEq, Repr

/-- `ST_*` (10_state.md R41). -/
structure StatusRegs where
  valid : Bool
  id : Byte
  rot : Byte
  baud : Byte
  delay : Byte
  delayUs : Half
deriving DecidableEq, Repr

/-- `RD_*` (10_state.md R43). `data` holds the bytes of `RD_DATA` that have a value (log 5). -/
structure ReadRegs where
  valid : Bool
  id : Byte
  flags : Byte
  addr : Byte
  len : Byte
  count : Byte
  data : List Byte
deriving DecidableEq, Repr

/-- The output events (00_scope.md R8). -/
inductive OutEvent where
  /-- `Open(i)` -/
  | opened (i : BaudIdx)
  /-- `Close` -/
  | closed
  /-- `Dir(TX)`, `Dir(RX)` -/
  | dir (d : Dir)
  /-- `Tx(b)` -/
  | tx (b : Byte)
  /-- `Delay(ms)` -/
  | delay (ms : Nat)
  /-- `Status(id, rot, baud, delay)` -/
  | status (id rot baud delay : Byte)
  /-- `RdData(fields)` -/
  | rdData (id flags addr len count : Byte) (data : List Byte)
  /-- `Err(code, info)` -/
  | err (code : BitVec 3) (info : Byte)
  /-- `Refuse(code)` -/
  | refuse (code : BitVec 3)
deriving DecidableEq, Repr

/-- The input events (00_scope.md R8) as the model takes them, with two of its own: `tick`, a place
where no input comes and the framer makes its next move, and `frame`, a frame given as bytes
(log 1, log 2). -/
inductive Input where
  /-- `Reset` -/
  | reset
  /-- `Start(intent)` -/
  | start (c : Intent)
  /-- `Cmd(op, operands)` -/
  | cmd (i : Instr)
  /-- A request frame stands for the `Cmd` it encodes, a response frame for its bytes on the line. -/
  | frame (bs : List Byte)
  /-- `Drained` -/
  | drained
  /-- The Transport receives byte `b` from the wire; `Rx(b)` is the framer's taking it. -/
  | rx (b : Byte)
  /-- `RxTimeout` -/
  | rxTimeout
  /-- No input: the framer makes its next move. -/
  | tick
deriving DecidableEq, Repr

/-- The value a codec function returned when called as an instruction (log 8). -/
inductive CodecOut where
  | none
  | checksum (b : Byte)
  | packet (bs : List Byte)
  | decoded (r : DecodeResult)
deriving DecidableEq, Repr

/-- The state: the registers of 10_state.md R20, then the model's own fields. -/
structure State where
  /-- `PHASE` (R27) -/
  phase : Phase
  /-- `PROG` (R25) -/
  prog : List (Seq × UOp)
  /-- `UPC` (R25) -/
  upc : Nat
  /-- `INTENT` (R21) -/
  intent : Intent
  /-- `CMD` (R24) -/
  cmd : CmdRegs
  /-- `OPEN` (R32) -/
  opn : Bool
  /-- `CUR_BAUD` (R32) -/
  curBaud : BaudIdx
  /-- `BAUD` (R33) -/
  baud : BaudIdx
  /-- `DIR` (R34) -/
  dir : Dir
  /-- `LST` (R35) -/
  lst : LinkState
  /-- `TXI` (R35) -/
  txi : Nat
  /-- `TXN` (R35) -/
  txn : Nat
  /-- `RXI` (R35) -/
  rxi : Nat
  /-- `RXN` (R35) -/
  rxn : Nat
  /-- `RXRES` (R35) -/
  rxres : RxRes
  /-- `TXBUF` (R36): the bytes that hold a value, none outside a `uSEND` (log 5) -/
  txbuf : List Byte
  /-- `RXBUF` (R37): the bytes that hold a value, none outside its window (log 5) -/
  rxbuf : List Byte
  /-- `TIMER` (R38): none when stopped, the window of the `uWAIT` in progress otherwise (log 6). -/
  timer : Option Nat
  /-- `RXDL` (R38) -/
  rxdl : Deadline
  /-- `ERR` (R39): bit 0 `CS`, 1 `TO`, 2 `CFG`, 3 `CMD` -/
  err : BitVec 4
  /-- `LASTERR` (R39) -/
  lasterr : LastErr
  /-- `DONE_MASK` (R40) -/
  doneMask : BitVec 7
  /-- `ST_*` (R41) -/
  st : StatusRegs
  /-- `RD_*` (R43) -/
  rd : ReadRegs
  /-- The model's own: the parameters of 00_scope.md R6, written by nothing (log 7). -/
  params : Params
  /-- The model's own: the codec's last returned value (log 8). -/
  codecOut : CodecOut
  /-- The model's own: the Transport's receive queue, oldest byte first (20_memory.md R67, log 9). -/
  rxFifo : List Byte
  /-- The model's own: the inputs to come, in order (log 1). -/
  inbox : List Input
  /-- The model's own: the trace, oldest event first (00_scope.md R8, log 1). -/
  trace : List OutEvent
  /-- The model's own: where the next free values are read (log 4). -/
  freeCtr : Nat
deriving DecidableEq, Repr

/-- Why the machine stops. The spec's own errors never stop it (60_exceptions.md R262): these are the
preconditions of micro-operations, which no step from a state of the invariant fails. -/
inductive Fault where
  /-- Raised by REOPEN, SEND, RECEIVE and WAIT begun while another micro-operation is running: the
  precondition `LST = L_IDLE` and `DIR = RX` of 41_link.md R150, R151, R155 fails and no rule gives an
  effect. Safe: the model stops. (log 10) -/
  | linkBusy
  /-- Raised by SEND with `OPEN = 0`: the precondition `OPEN = 1` of 41_link.md R151 fails and no rule
  gives an effect. Safe: the model stops. (log 10) -/
  | transportClosed
  /-- Raised by SWEEP anywhere but before the first micro-operation of a session: it is run only as the
  session's first state (43_sweep.md). Safe: the model stops. (log 11) -/
  | sweepOutsideSession
deriving DecidableEq, Repr

/-- Why there is no meaning to run. -/
inductive Refusal where
  /-- Raised by `exec` for an instruction of the table that has no meaning yet. Safe. -/
  | notModelled (mnemonic : String)
  /-- Raised by `step` when the host's `Cmd` names an operation that 30_encoding.md R112 does not let it
  call. Safe: no such input exists in the spec. (log 14) -/
  | notACommand
  /-- Raised by `step` when bytes given as a frame are none. Safe: the host port of the spec takes no
  bytes, and line noise comes in as `rx` inputs. (log 14) -/
  | undecodable (e : DecodeError)
deriving DecidableEq, Repr

/-- The state after `Reset` (10_state.md R46). Registers that "hold no value" there have the value
log 3 names (DESIGN CHOICE). -/
def State.reset : State where
  phase := .idle
  prog := []
  upc := 0
  intent := ⟨0, false, 0, 0, 0, false, false⟩
  cmd := ⟨.read, 0, 0, 0, [], 0, 0⟩
  opn := false
  curBaud := 0
  baud := defaultBaudIdx
  dir := .rx
  lst := .idle
  txi := 0
  txn := 0
  rxi := 0
  rxn := 0
  rxres := .none
  txbuf := []
  rxbuf := []
  timer := none
  rxdl := .stopped
  err := 0
  lasterr := ⟨0, 0⟩
  doneMask := 0
  st := ⟨false, 0, 0, 0, 0, 0⟩
  rd := ⟨false, 0, 0, 0, 0, 0, []⟩
  params := Params.default
  codecOut := .none
  rxFifo := []
  inbox := []
  trace := []
  freeCtr := 0

end Sys2Proof.Machine
end

