-- ==== Sys2Proof/Machine/Flags.lean ====
section
/-! DEFINITION. The framer's only flags: the sticky `ERR` bits, the codes of `LASTERR`, the bits of
`DONE_MASK` (10_state.md R39, R40; 60_exceptions.md R261). No operation's result depends on a flag. -/

namespace Sys2Proof.Machine

/-- The `CODE` of an error kind (60_exceptions.md R261). -/
def ErrKind.code : ErrKind → BitVec 3
  | .checksumMismatch => 1
  | .headerSyncTimeout => 2
  | .noResponse => 3
  | .configRefused => 4
  | .commandRefused => 5

/-- The `ERR` bit of an error kind (10_state.md R39): `CS`, `TO`, none, `CFG`, `CMD`. -/
def ErrKind.bit : ErrKind → BitVec 4
  | .checksumMismatch => 0b0001
  | .headerSyncTimeout => 0b0010
  | .noResponse => 0b0000
  | .configRefused => 0b0100
  | .commandRefused => 0b1000

/-- The `DONE_MASK` bit a session step sets when its last micro-operation completes
(10_state.md R40, 44_session.md R247); StatusReport's bit 6 is set by `uREPORT` instead. -/
def Seq.doneBit : Seq → BitVec 7
  | .recoverySweep => 0b0000001
  | .factoryReset => 0b0000010
  | .setID => 0b0000100
  | .setReplyDelay => 0b0001000
  | .setRotationSense => 0b0010000
  | .torqueEnable => 0b0100000
  | .idle | .baudOpen | .statusReport | .done => 0b0000000

/-- `DONE_MASK[6]`, set by `uREPORT` with `ST_VALID` (44_session.md R243). -/
def statusDoneBit : BitVec 7 := 0b1000000

/-- The number of a `SEQ` value (10_state.md R26). -/
def Seq.number : Seq → Nat
  | .idle => 0
  | .recoverySweep => 1
  | .baudOpen => 2
  | .factoryReset => 3
  | .setID => 4
  | .setReplyDelay => 5
  | .setRotationSense => 6
  | .torqueEnable => 7
  | .statusReport => 8
  | .done => 9

end Sys2Proof.Machine
end

