-- ==== Sys2Proof/Machine/Ops.lean ====
section
/-! DEFINITION. The named operations over the registers: events, errors and refusals (the framer's only
"exception entry"), the program counter, the command port's latches, the buffers' accessors. -/

namespace Sys2Proof.Machine

/-! ### Reading the state -/

/-- `BUSY` (10_state.md R28). -/
def State.busy (s : State) : Bool := s.phase == .session || s.phase == .cmd

/-- Between micro-operations (41_link.md R150, R153): the link engine idle, the line released, no
window running. -/
abbrev State.Between (s : State) : Prop := s.lst = .idle ∧ s.dir = .rx ∧ s.timer = none

/-- `TXBUF[k]`; an index with no byte holds no value, and a read of it is a free value of that byte
(10_state.md R45; log 4, log 5). -/
def State.txAt (s : State) (k : Nat) : Byte := s.txbuf[k]?.getD (Config.freeByte .txbuf s.freeCtr k)

/-- `RXBUF[k]`; an index with no byte holds no value, and a read of it is a free value of that byte
(10_state.md R45; log 4, log 5). -/
def State.rxAt (s : State) (k : Nat) : Byte := s.rxbuf[k]?.getD (Config.freeByte .rxbuf s.freeCtr k)

/-! ### Buffers outside their windows -/

/-- The end of a `uSEND`: no byte of `TXBUF` holds a value any more (10_state.md R36, R45; log 5). -/
def dropTxbuf (s : State) : State := { s with txbuf := [], freeCtr := s.freeCtr + 1 }

/-- The end of the window of `RXBUF`: no byte of it holds a value any more (10_state.md R37, R45;
log 5). -/
def dropRxbuf (s : State) : State := { s with rxbuf := [], freeCtr := s.freeCtr + 1 }

/-! ### Events, errors, refusals -/

/-- `emit E` (00_scope.md R10). -/
def emit (e : OutEvent) (s : State) : State := { s with trace := s.trace ++ [e] }

/-- What raising and refusing share (60_exceptions.md R262, R263): the sticky flag, `LASTERR`, one
event, and nothing else. -/
def recordError (k : ErrKind) (info : Byte) (e : OutEvent) (s : State) : State :=
  { emit e s with err := s.err ||| k.bit, lasterr := ⟨k.code, info⟩ }

/-- `raise K(info)` (60_exceptions.md R262): the whole of "trap entry". There is no return (R264). -/
def raiseError (k : ErrKind) (info : Byte) (s : State) : State :=
  recordError k info (.err k.code info) s

/-- `refuse K(info)` (60_exceptions.md R263): the call is dropped. -/
def refuseCall (k : ErrKind) (info : Byte) (s : State) : State :=
  recordError k info (.refuse k.code) s

/-! ### The program counter -/

/-- Load a program (10_state.md R25; 42_commands.md R180, 44_session.md R230). -/
def loadProgram (prog : List (Seq × UOp)) (phase : Phase) (s : State) : State :=
  { s with prog := prog, upc := 0, rxres := .none, phase := phase }

/-- The `DONE_MASK` bit of the completing micro-operation (44_session.md R247): its tag's, when it is
the last of `PROG` or the next one has another tag. -/
def completedBit (prog : List (Seq × UOp)) (upc : Nat) : BitVec 7 :=
  match prog[upc]?, prog[upc + 1]? with
  | some (t, _), some (t', _) => if t = t' then 0 else t.doneBit
  | some (t, _), none => t.doneBit
  | none, _ => 0

/-- A micro-operation completes (10_state.md R25, 41_link.md R164): `UPC <- UPC + 1`; a session step's
`DONE_MASK` bit (R247); at `UPC = |PROG|` the phase becomes `P_READY` (R27, log 12). Outside a running
program there is nothing to advance. -/
def completeUop (s : State) : State :=
  if s.busy = true ∧ s.upc < s.prog.length then
    { s with
      upc := s.upc + 1
      doneMask := if s.phase = .session then s.doneMask ||| completedBit s.prog s.upc else s.doneMask
      phase := if s.upc + 1 = s.prog.length then .ready else s.phase }
  else s

/-! ### The command port -/

/-- What one `Cmd(op, operands)` brings: the operands the operation has (`none` and `[]` for those it
lacks), the results of its own operand tests, and the micro-program its rule gives. -/
structure CmdCall where
  op : CmdOp
  id : Byte
  addr : Option Byte := none
  len : Option Byte := none
  data : List Byte := []
  angle : Option Half := none
  time : Option Half := none
  inRange : Bool := true
  lengthOk : Bool := true
  prog : List UOp

/-- The reads, whose acceptance clears `RD_VALID` (42_commands.md R180). -/
def CmdOp.isRead : CmdOp → Bool
  | .read | .rdstat | .rdangle => true
  | _ => false

/-- `CMD <- (op, operands)` (10_state.md R24): operands the operation lacks hold no value, so each is a
free value (R45, log 4). -/
def latchCmd (c : CmdCall) (s : State) : CmdRegs where
  op := c.op
  id := c.id
  addr := c.addr.getD (Config.freeByte .cmdAddr s.freeCtr 0)
  len := c.len.getD (Config.freeByte .cmdLen s.freeCtr 0)
  data := c.data
  angle := c.angle.getD (Config.freeHalf .cmdAngle s.freeCtr)
  time := c.time.getD (Config.freeHalf .cmdTime s.freeCtr)

/-- `RD_VALID <- 0` (10_state.md R43): the other `RD_*` hold no value then, so each is a free value
(R45, log 4). -/
def clearedRd (s : State) : ReadRegs where
  valid := false
  id := Config.freeByte .rdId s.freeCtr 0
  flags := Config.freeByte .rdFlags s.freeCtr 0
  addr := Config.freeByte .rdAddr s.freeCtr 0
  len := Config.freeByte .rdLen s.freeCtr 0
  count := Config.freeByte .rdCount s.freeCtr 0
  data := []

/-- The effect of an accepted `Cmd` (42_commands.md R180). -/
def acceptCmd (c : CmdCall) (s : State) : State :=
  { loadProgram (c.prog.map (Seq.done, ·)) .cmd s with
    cmd := latchCmd c s
    rd := if c.op.isRead then clearedRd s else s.rd
    freeCtr := s.freeCtr + 1 }

/-- `Cmd(op, operands)` (42_commands.md R180): the tests in their order, then acceptance. -/
def callCommand (c : CmdCall) (s : State) : State :=
  if s.phase ≠ .ready then refuseCall .commandRefused 1 s
  else if validId c.id = false then refuseCall .commandRefused 2 s
  else if c.inRange = false then refuseCall .commandRefused 3 s
  else if c.lengthOk = false then refuseCall .commandRefused 4 s
  else acceptCmd c s

/-! ### Reset -/

/-- The input `Reset` (10_state.md R46, R47; 70_reset_and_hazards.md R300, R301): every register at its
reset value, no event. What is not the framer's stays: the Transport's receive queue, the inputs to
come, the parameters, the trace so far (log 19). The counter of the free values advances (log 4). -/
def applyReset (s : State) : State :=
  { State.reset with
    params := s.params
    rxFifo := s.rxFifo
    inbox := s.inbox
    trace := s.trace
    freeCtr := s.freeCtr + 1 }

end Sys2Proof.Machine
end

