-- ==== Sys2Proof/Machine/Codec.lean ====
section
/-! DEFINITION. The meanings of the codec functions and of a response frame on the line (40_codec.md,
30_encoding.md R91). -/

namespace Sys2Proof.Machine

/-- `XSUM s` (40_codec.md R130): pure; its value goes to the model's result field (log 8). -/
def execXsum (bs : List Byte) (s : State) : Host.Outcome State Fault Refusal :=
  .next { s with codecOut := .checksum (xsum bs) }

/-- `ENCODE id, flags, addr, len, count, payload` (40_codec.md R131): pure and total (log 8). -/
def execEncode (id flags addr len count : Byte) (payload : List Byte) (s : State) :
    Host.Outcome State Fault Refusal :=
  .next { s with codecOut := .packet (encodeFrame id flags addr len count payload) }

/-- `DECODE body` (40_codec.md R133): pure; both error results are values (log 8). -/
def execDecode (body : List Byte) (s : State) : Host.Outcome State Fault Refusal :=
  .next { s with codecOut := .decoded (decodeBody body) }

/-- A response frame (30_encoding.md R91): the line delivers its bytes to the Transport, where they wait
for the framer to take them (20_memory.md R67, log 9). -/
def execResponse (id flags addr len count : Byte) (payload : List Byte) (s : State) :
    Host.Outcome State Fault Refusal :=
  .next { s with rxFifo := s.rxFifo ++ responseFrame id flags addr len count payload }

end Sys2Proof.Machine
end

