-- ==== Sys2Proof/Machine/Programs.lean ====
section
/-! DEFINITION. The micro-programs: the frames of 30_encoding.md R111 and the lists of micro-operations
of the commands (42_commands.md), the sweep (43_sweep.md R221) and the session (44_session.md R231). -/

namespace Sys2Proof.Machine

/-! ### Frames -/

/-- A write frame: `Flags = 0x00`, `Count = 0x01` (30_encoding.md R95, R98). -/
def writeFrame (id addr len : Byte) (data : List Byte) : List Byte :=
  encodeFrame id fWrite addr len 1 data

/-- A read request: `Flags = 0x0F`, `Count = 0x00`, no payload. -/
def readFrame (id addr len : Byte) : List Byte := encodeFrame id fRead addr len 0 []

/-- The ROMCOMMIT frame (42_commands.md R184). -/
def commitFrame (id : Byte) : List Byte := encodeFrame id fRom aCtrl 0 0 []

/-- The REBOOT frame (42_commands.md R185). -/
def rebootFrame (id : Byte) : List Byte := encodeFrame id fReboot aCtrl 0 0 []

/-- The FRESET frame (42_commands.md R186). -/
def resetFrame (p : Params) (id : Byte) : List Byte := encodeFrame id fReset aCtrl p.resetLen 0 []

/-! ### Commands -/

/-- WRITE's micro-program (42_commands.md R182), and with fixed operands SETID, SETREV, SETBAUD,
SETDELAY, TORQUE and MOVE (30_encoding.md R113). -/
def writeProgram (id addr len : Byte) (data : List Byte) : List UOp :=
  [.usend (writeFrame id addr len data)]

/-- READ's micro-program (42_commands.md R181), and with fixed operands RDSTAT and RDANGLE. -/
def readProgram (id addr len : Byte) : List UOp :=
  [.usend (readFrame id addr len), .urecv len, .urdlatch]

/-- ROMCOMMIT's micro-program (42_commands.md R184): the window belongs to the command. -/
def commitProgram (p : Params) (id : Byte) : List UOp :=
  [.usend (commitFrame id), .uwait p.tCommitMs]

/-- REBOOT's micro-program (42_commands.md R185). -/
def rebootProgram (p : Params) (id : Byte) : List UOp :=
  [.usend (rebootFrame id), .uwait p.tRebootMs]

/-- FRESET's micro-program (42_commands.md R186). -/
def resetProgram (p : Params) (id : Byte) : List UOp := [.usend (resetFrame p id)]

/-- PERSIST's micro-program (42_commands.md R195). -/
def persistProgram (p : Params) (id : Byte) : List UOp := commitProgram p id ++ rebootProgram p id

/-! ### The sweep -/

/-- One cycle of the sweep (43_sweep.md R221). -/
def sweepCycle (p : Params) (target i : BaudIdx) : List UOp :=
  .uopen i :: (writeProgram broadcastId aBaud 1 [baudByte target] ++ persistProgram p broadcastId)

/-- `sweep_program` (43_sweep.md R221), before tagging. -/
def sweepOps (p : Params) (target : BaudIdx) : List UOp := baudIndices.flatMap (sweepCycle p target)

/-- Tag every micro-operation with a session state (10_state.md R25). -/
def tagged (t : Seq) (us : List UOp) : List (Seq × UOp) := us.map (t, ·)

/-- `sweep_program` (43_sweep.md R221), every entry tagged `RecoverySweep`. -/
def sweepProgram (p : Params) (target : BaudIdx) : List (Seq × UOp) :=
  tagged .recoverySweep (sweepOps p target)

/-! ### The session -/

/-- A one-byte register write to `SESSION_ID`, persisted (44_session.md R238 to R240). -/
def persistedWrite (p : Params) (addr v : Byte) : List UOp :=
  writeProgram p.sessionId addr 1 [v] ++ persistProgram p p.sessionId

/-- The FactoryReset step (44_session.md R235, R237). -/
def factoryResetOps (p : Params) : List UOp :=
  resetProgram p p.sessionId ++ persistProgram p p.sessionId ++
    [.ubaud defaultBaudIdx, .uopen defaultBaudIdx]

/-- The StatusReport step (44_session.md R242). -/
def statusReportOps (p : Params) : List UOp :=
  [.usend (readFrame p.sessionId statusAddr p.statusLen), .urecv p.statusLen, .ureport]

/-- The session program after the optional sweep (44_session.md R231). -/
def sessionTail (p : Params) (c : Intent) : List (Seq × UOp) :=
  tagged .baudOpen [.uopen (baudIdxOf c.tbaud)] ++
  tagged .factoryReset (if c.reset then factoryResetOps p else []) ++
  tagged .setID (if c.newid ≠ 0 then persistedWrite p aId c.newid else []) ++
  tagged .setReplyDelay (if c.delay.toNat ≤ 127 then persistedWrite p aDelay c.delay else []) ++
  tagged .setRotationSense (if c.rot.toNat ≤ 1 then persistedWrite p aRev c.rot else []) ++
  tagged .torqueEnable (writeProgram broadcastId aTorque 1 [1]) ++
  tagged .statusReport (if c.statusEn then statusReportOps p else [])

/-- `session_program` (44_session.md R231). -/
def sessionProgram (p : Params) (c : Intent) : List (Seq × UOp) :=
  (if c.sweep then sweepProgram p (baudIdxOf c.tbaud) else []) ++ sessionTail p c

end Sys2Proof.Machine
end

