-- ==== Sys2Proof/Machine/Commands.lean ====
section
/-! DEFINITION. The Command Set (42_commands.md): each meaning is the host's `Cmd(op, operands)`, refused
or accepted whole (R180), with the operand tests and the micro-program of its own rule. -/

namespace Sys2Proof.Machine

/-- `ROMCOMMIT id` (42_commands.md R184). -/
def execRomcommit (id : Byte) (s : State) : Host.Outcome State Fault Refusal :=
  .next (callCommand { op := .romcommit, id := id, prog := commitProgram s.params id } s)

/-- `REBOOT id` (42_commands.md R185). -/
def execReboot (id : Byte) (s : State) : Host.Outcome State Fault Refusal :=
  .next (callCommand { op := .reboot, id := id, prog := rebootProgram s.params id } s)

/-- `FRESET id` (42_commands.md R186). -/
def execFreset (id : Byte) (s : State) : Host.Outcome State Fault Refusal :=
  .next (callCommand { op := .freset, id := id, prog := resetProgram s.params id } s)

/-- `SETID id, newid` (42_commands.md R187). -/
def execSetid (id newid : Byte) (s : State) : Host.Outcome State Fault Refusal :=
  .next (callCommand
    { op := .setid, id := id, data := [newid], inRange := newIdInRange newid,
      prog := writeProgram id aId 1 [newid] } s)

/-- `SETREV id, r` (42_commands.md R188). -/
def execSetrev (id r : Byte) (s : State) : Host.Outcome State Fault Refusal :=
  .next (callCommand
    { op := .setrev, id := id, data := [r], inRange := rotInRange r,
      prog := writeProgram id aRev 1 [r] } s)

/-- `SETBAUD id, idx` (42_commands.md R189). -/
def execSetbaud (id idx : Byte) (s : State) : Host.Outcome State Fault Refusal :=
  .next (callCommand
    { op := .setbaud, id := id, data := [idx], inRange := idxInRange idx,
      prog := writeProgram id aBaud 1 [idx] } s)

/-- `SETDELAY id, c` (42_commands.md R190). -/
def execSetdelay (id c : Byte) (s : State) : Host.Outcome State Fault Refusal :=
  .next (callCommand
    { op := .setdelay, id := id, data := [c], inRange := delayInRange c,
      prog := writeProgram id aDelay 1 [c] } s)

/-- `TORQUE id, en` (42_commands.md R191). -/
def execTorque (id en : Byte) (s : State) : Host.Outcome State Fault Refusal :=
  .next (callCommand
    { op := .torque, id := id, data := [en], inRange := torqueInRange en,
      prog := writeProgram id aTorque 1 [en] } s)

/-- `MOVE id, angle, time` (42_commands.md R192). -/
def execMove (id : Byte) (angle : Int) (time : Half) (s : State) :
    Host.Outcome State Fault Refusal :=
  .next (callCommand
    { op := .move, id := id, angle := some (tc16 angle), time := some time,
      inRange := angleInRange angle, prog := writeProgram id aGoal 4 (movePayload angle time) } s)

/-- `RDSTAT id` (42_commands.md R193). -/
def execRdstat (id : Byte) (s : State) : Host.Outcome State Fault Refusal :=
  .next (callCommand
    { op := .rdstat, id := id, prog := readProgram id statusAddr s.params.statusLen } s)

/-- `RDANGLE id` (42_commands.md R194). -/
def execRdangle (id : Byte) (s : State) : Host.Outcome State Fault Refusal :=
  .next (callCommand
    { op := .rdangle, id := id, prog := readProgram id aAngle s.params.angleLen } s)

/-- `WRITE id, addr, len, data` (42_commands.md R182); `|data| != len` is LengthMismatch (R180). -/
def execWrite (id addr len : Byte) (data : List Byte) (s : State) :
    Host.Outcome State Fault Refusal :=
  .next (callCommand
    { op := .write, id := id, addr := some addr, len := some len, data := data,
      lengthOk := decide (data.length = len.toNat), prog := writeProgram id addr len data } s)

/-- `READ id, addr, len` (42_commands.md R181). -/
def execRead (id addr len : Byte) (s : State) : Host.Outcome State Fault Refusal :=
  .next (callCommand
    { op := .read, id := id, addr := some addr, len := some len,
      prog := readProgram id addr len } s)

/-- `PERSIST id` (42_commands.md R195). -/
def execPersist (id : Byte) (s : State) : Host.Outcome State Fault Refusal :=
  .next (callCommand { op := .persist, id := id, prog := persistProgram s.params id } s)

end Sys2Proof.Machine
end

