-- ==== Sys2Proof/Machine/Link.lean ====
section
/-! DEFINITION. The link engine's micro-operations as they begin (41_link.md R150, R151, R155, R160: the
"begin" rows of R164). The rows after them are in Machine/Engine.lean. -/

namespace Sys2Proof.Machine

/-- The Transport is closed, if open, and opened at `i` (41_link.md R150). -/
def openTransport (i : BaudIdx) (s : State) : State :=
  let s := if s.opn then emit .closed s else s
  { emit (.opened i) s with opn := true, curBaud := i }

/-- `DIR <- TX` with the packet latched (41_link.md R151). -/
def beginSend (pkt : List Byte) (s : State) : State :=
  { emit (.dir .tx) s with txbuf := pkt, txn := pkt.length, txi := 0, dir := .tx, lst := .tx }

/-- The hunt begins and the deadline starts (41_link.md R155). -/
def beginReceive (len : Byte) (s : State) : State :=
  { s with rxn := 5 + len.toNat + 1, rxres := .none, rxdl := .running, lst := .hunt1 }

/-- The window begins (41_link.md R160). -/
def beginWait (ms : Nat) (s : State) : State := { emit (.delay ms) s with timer := some ms }

/-- `REOPEN i` (41_link.md R150): completes at once. -/
def execReopen (i : BaudIdx) (s : State) : Host.Outcome State Fault Refusal :=
  if s.Between then .next (completeUop (openTransport i s)) else .fault .linkBusy

/-- `SEND pkt` (41_link.md R151), its first row; it completes with `Drained`. -/
def execSend (pkt : List Byte) (s : State) : Host.Outcome State Fault Refusal :=
  if s.Between then
    if s.opn then .next (beginSend pkt s) else .fault .transportClosed
  else .fault .linkBusy

/-- `RECEIVE L` (41_link.md R155), its first row; it completes with an accepted body or the deadline. -/
def execReceive (len : Byte) (s : State) : Host.Outcome State Fault Refusal :=
  if s.Between then .next (beginReceive len s) else .fault .linkBusy

/-- `WAIT ms` (41_link.md R160): the window is in progress until the timer's move ends it (log 6). -/
def execWait (ms : Nat) (s : State) : Host.Outcome State Fault Refusal :=
  if s.Between then .next (beginWait ms s) else .fault .linkBusy

end Sys2Proof.Machine
end

