-- ==== Sys2Proof/Machine/Session.lean ====
section
/-! DEFINITION. The Session Sequencer and the Recovery Scanner (44_session.md R230, 43_sweep.md R220). -/

namespace Sys2Proof.Machine

/-- The effect of an accepted `Start(intent)` (44_session.md R230). -/
def acceptStart (c : Intent) (s : State) : State :=
  { loadProgram (sessionProgram s.params c) .session s with
    intent := c
    baud := baudIdxOf c.tbaud }

/-- `SESSION intent`, called as `Start(intent)` (44_session.md R230): the tests in their order, then
acceptance. -/
def execSession (c : Intent) (s : State) : Host.Outcome State Fault Refusal :=
  if s.phase ≠ .idle then .next (refuseCall .configRefused 3 s)
  else if 11 < c.tbaud.toNat then .next (refuseCall .configRefused 1 s)
  else if 127 < c.newid.toNat then .next (refuseCall .configRefused 2 s)
  else .next (acceptStart c s)

/-- `SWEEP target` (43_sweep.md R220, R221): the session's first state, its micro-operations expanded in
place before the rest of the program (30_encoding.md R113, log 11). -/
def execSweep (target : BaudIdx) (s : State) : Host.Outcome State Fault Refusal :=
  if s.phase = .session ∧ s.upc = 0 ∧ s.Between then
    .next { s with prog := sweepProgram s.params target ++ s.prog }
  else .fault .sweepOutsideSession

end Sys2Proof.Machine
end

