-- ==== Sys2Proof/Machine/Dispatch.lean ====
section
/-! DEFINITION. The meaning of every instruction of spec/opcode_table.json. -/

namespace Sys2Proof.Machine

def exec (i : Instr) (s : State) : Host.Outcome State Fault Refusal :=
  match i with
  | .romcommit id => Sys2Proof.Machine.execRomcommit id s
  | .reboot id => Sys2Proof.Machine.execReboot id s
  | .freset id => Sys2Proof.Machine.execFreset id s
  | .setid id newid => Sys2Proof.Machine.execSetid id newid s
  | .setrev id r => Sys2Proof.Machine.execSetrev id r s
  | .setbaud id idx => Sys2Proof.Machine.execSetbaud id idx s
  | .setdelay id c => Sys2Proof.Machine.execSetdelay id c s
  | .torque id en => Sys2Proof.Machine.execTorque id en s
  | .move id angle time => Sys2Proof.Machine.execMove id angle time s
  | .rdstat id => Sys2Proof.Machine.execRdstat id s
  | .rdangle id => Sys2Proof.Machine.execRdangle id s
  | .write id addr len data => Sys2Proof.Machine.execWrite id addr len data s
  | .read id addr len => Sys2Proof.Machine.execRead id addr len s
  | .response id flags addr len count payload => Sys2Proof.Machine.execResponse id flags addr len count payload s
  | .xsum bs => Sys2Proof.Machine.execXsum bs s
  | .encode id flags addr len count payload => Sys2Proof.Machine.execEncode id flags addr len count payload s
  | .decode body => Sys2Proof.Machine.execDecode body s
  | .reopen b => Sys2Proof.Machine.execReopen b s
  | .send pkt => Sys2Proof.Machine.execSend pkt s
  | .receive len => Sys2Proof.Machine.execReceive len s
  | .wait ms => Sys2Proof.Machine.execWait ms s
  | .persist id => Sys2Proof.Machine.execPersist id s
  | .sweep target => Sys2Proof.Machine.execSweep target s
  | .session c => Sys2Proof.Machine.execSession c s

end Sys2Proof.Machine
end

