-- ==== Sys2Proof/Machine/Engine.lean ====
section
/-! DEFINITION. The framer's own moves between the beginning and the completion of a micro-operation
(41_link.md R164), the micro-operations that have no row of the opcode table, and what each input does
when it comes. -/

namespace Sys2Proof.Machine

/-! ### Micro-operations with no row of their own -/

/-- `uBAUD(i)` (44_session.md R237). -/
def runBaud (i : BaudIdx) (s : State) : State := completeUop { s with baud := i }

/-- `uREPORT` (44_session.md R243); the window of `RXBUF` ends with it (10_state.md R37). -/
def runReport (s : State) : State :=
  completeUop (dropRxbuf (if s.rxres = .ok then
    { emit (.status (s.rxAt 5) (s.rxAt 6) (s.rxAt 7) (s.rxAt 8)) s with
      st := ⟨true, s.rxAt 5, s.rxAt 6, s.rxAt 7, s.rxAt 8, delayUs (s.rxAt 8)⟩
      doneMask := s.doneMask ||| statusDoneBit }
  else s))

/-- `RXBUF[5 .. 4 + L]`, `L` the request's length, which is `RXN - 6` (log 21). -/
def payloadOf (s : State) : List Byte := (List.range (s.rxn - 6)).map fun k => s.rxAt (5 + k)

/-- `uRDLATCH` (42_commands.md R181); the window of `RXBUF` ends with it (10_state.md R37). -/
def runRdlatch (s : State) : State :=
  completeUop (dropRxbuf (if s.rxres = .ok then
    { emit (.rdData (s.rxAt 0) (s.rxAt 1) (s.rxAt 2) (s.rxAt 3) (s.rxAt 4) (payloadOf s)) s with
      rd := ⟨true, s.rxAt 0, s.rxAt 1, s.rxAt 2, s.rxAt 3, s.rxAt 4, payloadOf s⟩ }
  else s))

/-! ### Fetch -/

/-- The micro-operation about to be executed (10_state.md R25): `PROG[UPC]`, when a program runs and no
micro-operation is in progress. -/
def fetchUop (s : State) : Option UOp :=
  if s.busy = true ∧ s.lst = .idle ∧ s.timer = none then s.prog[s.upc]?.map Prod.snd else none

/-- The instruction a micro-operation is, where the opcode table has it (30_encoding.md R112). -/
def UOp.toInstr : UOp → Option Instr
  | .uopen i => some (.reopen i)
  | .usend pkt => some (.send pkt)
  | .urecv len => some (.receive len)
  | .uwait ms => some (.wait ms)
  | .ubaud _ | .ureport | .urdlatch => none

/-- The micro-operations the table does not have, each completing at once. -/
def runInternal (u : UOp) (s : State) : State :=
  match u with
  | .ubaud i => runBaud i s
  | .ureport => runReport s
  | .urdlatch => runRdlatch s
  | .uopen _ | .usend _ | .urecv _ | .uwait _ => s

/-! ### The link engine's rows -/

/-- `L_TX` (41_link.md R151, R164): one byte handed to the Transport, or the last one has been. -/
def txMove (s : State) : State :=
  if s.txi < s.txn then { emit (.tx (s.txAt s.txi)) s with txi := s.txi + 1 }
  else { s with lst := .drain }

/-- `Drained` (41_link.md R151, R164): the line is released and the `uSEND` completes, and with it the
window of `TXBUF` (10_state.md R36); ignored in every other state. -/
def takeDrained (s : State) : State :=
  if s.lst = .drain then
    completeUop (dropTxbuf { emit (.dir .rx) s with dir := .rx, lst := .idle })
  else s

/-- Store a body byte (41_link.md R157): `RXBUF[RXI] <- b; RXI <- RXI + 1`. Bytes of `RXBUF` past it
hold no value (10_state.md R37, log 5). -/
def stageByte (b : Byte) (s : State) : State :=
  { s with rxbuf := s.rxbuf.take s.rxi ++ [b], rxi := s.rxi + 1 }

/-- The `uRECV` completes with result `r` (41_link.md R155): the deadline stops. -/
def endReceive (r : RxRes) (s : State) : State :=
  completeUop { s with rxres := r, rxdl := .stopped, lst := .idle }

/-- The check once `RXI = RXN` (41_link.md R157): accepted, or `ChecksumMismatch` and the hunt again
under the same deadline, the discarded body holding no value any more (10_state.md R37). -/
def checkBody (s : State) : State :=
  match decodeBody (s.rxbuf.take s.rxn) with
  | .ok _ => endReceive .ok s
  | .checksumMismatch | .malformed =>
    { dropRxbuf (raiseError .checksumMismatch 0 s) with lst := .hunt1 }

/-- `Rx(b)` in a waiting state (41_link.md R156, R157). -/
def takeByte (b : Byte) (s : State) : State :=
  match s.lst with
  | .hunt1 => if b = hRsp1 then { s with lst := .hunt2 } else s
  | .hunt2 =>
    if b = hRsp2 then { s with lst := .body, rxi := 0 }
    else if b = hRsp1 then s
    else { s with lst := .hunt1 }
  | .body => if s.rxi + 1 < s.rxn then stageByte b s else checkBody (stageByte b s)
  | .idle | .tx | .drain => s

/-- The framer takes the next received byte, if there is one (20_memory.md R67). -/
def rxMove (s : State) : State :=
  match s.rxFifo with
  | [] => s
  | b :: rest => takeByte b { s with rxFifo := rest }

/-- `RxTimeout` (41_link.md R158): the `uRECV` completes with `HeaderSyncTimeout`, its partly staged
bytes dropped; outside a `uRECV` the event does not exist and the model drops it (log 15). -/
def takeTimeout (s : State) : State :=
  match s.lst with
  | .hunt1 | .hunt2 => endReceive .timeout (dropRxbuf (raiseError .headerSyncTimeout 0 s))
  | .body => endReceive .timeout (dropRxbuf (raiseError .headerSyncTimeout 1 s))
  | .idle | .tx | .drain => s

/-- The window of a `uWAIT` has passed (41_link.md R160, log 6). -/
def timerMove (s : State) : State :=
  match s.timer with
  | some _ => completeUop { s with timer := none }
  | none => s

/-- The framer's move while no micro-operation is to begin: a row of 41_link.md R164. A state with no
row is left as it is, so a wait whose input does not come is a stuck state (R166, log 15). -/
def engineMove (s : State) : State :=
  match s.lst with
  | .tx => txMove s
  | .drain => s
  | .hunt1 | .hunt2 | .body => rxMove s
  | .idle => timerMove s

/-- The Transport receives a byte from the wire (20_memory.md R67): it waits in the receive queue. -/
def receiveWireByte (b : Byte) (s : State) : State := { s with rxFifo := s.rxFifo ++ [b] }

end Sys2Proof.Machine
end

