-- ==== Sys2Proof/Machine/HostPort.lean ====
section
/-! DEFINITION. What the host and the platform see (10_state.md R26, R28, R34, R42, R44): functions of
the state, never state of their own. -/

namespace Sys2Proof.Machine

/-- `SEQ` (10_state.md R26). -/
def State.seq (s : State) : Seq :=
  match s.phase with
  | .idle => .idle
  | .session => (s.prog[s.upc]?.map Prod.fst).getD .done
  | .ready | .cmd => .done

/-- `OUT_BAUD_IDX` (10_state.md R42). -/
def State.outBaudIdx (s : State) : BaudIdx := s.baud

/-- `OUT_BAUD_BPS` (10_state.md R42). -/
def State.outBaudBps (s : State) : Nat := baudRate s.baud

/-- `OUT_DELAY_US` (10_state.md R42), meaningful only when `INTENT.DELAY <= 127`. -/
def State.outDelayUs (s : State) : Half := delayUs s.intent.delay

/-- The direction pin (10_state.md R34): `DIR_TX_LEVEL` means transmit. -/
def State.dirPin (s : State) : Bool :=
  match s.dir with
  | .tx => Config.dirTxLevel
  | .rx => !Config.dirTxLevel

/-- A flag as the number the host reads. -/
def flagValue (b : Bool) : Nat := if b then 1 else 0

/-- The values of a host register by its number (10_state.md R44), in the order of its row; none for
`CMD` (7), which the host cannot read, and for numbers with no row. A byte of `RD_DATA` that holds no
value reads as a free value of that byte (R43, R45; log 4, log 5). -/
def hostRead (n : Nat) (s : State) : Option (List Nat) :=
  match n with
  | 0 => some [s.intent.tbaud.toNat]
  | 1 => some [flagValue s.intent.sweep]
  | 2 => some [s.intent.newid.toNat]
  | 3 => some [s.intent.rot.toNat]
  | 4 => some [s.intent.delay.toNat]
  | 5 => some [flagValue s.intent.reset]
  | 6 => some [flagValue s.intent.statusEn]
  | 8 => some [s.seq.number]
  | 9 => some [flagValue s.busy]
  | 10 => some [flagValue s.opn, s.curBaud.val]
  | 11 => some [s.outBaudIdx.val, s.outBaudBps]
  | 12 => some [flagValue (s.dir == .tx)]
  | 13 => some [s.err.toNat]
  | 14 => some [s.lasterr.code.toNat, s.lasterr.info.toNat]
  | 15 => some [s.doneMask.toNat]
  | 16 => some [flagValue s.st.valid, s.st.id.toNat, s.st.rot.toNat, s.st.baud.toNat,
      s.st.delay.toNat, s.st.delayUs.toNat]
  | 17 => some [s.outDelayUs.toNat]
  | 18 => some ([flagValue s.rd.valid, s.rd.id.toNat, s.rd.flags.toNat, s.rd.addr.toNat,
      s.rd.len.toNat, s.rd.count.toNat] ++
      (List.range 255).map fun k => (s.rd.data[k]?.getD (Config.freeByte .rdData s.freeCtr k)).toNat)
  | _ => none

/-- A host read at a bus address (10_state.md R44): `HOST_MAP` is open (log 7). -/
def busRead (addr : Nat) (s : State) : Option (List Nat) := hostRead (Config.hostMap addr) s

end Sys2Proof.Machine
end

