-- ==== Sys2Proof/Machine/Step.lean ====
section
/-! DEFINITION. One step: the next input is taken, or the framer makes its own next move
(00_scope.md R7 to R9, R11; log 1). -/

namespace Sys2Proof.Machine

/-- The framer's own next move (00_scope.md R11): the micro-operation at `UPC` begins, or the one in
progress goes on. -/
def framerMove (s : State) : Host.Outcome State Fault Refusal :=
  match fetchUop s with
  | some u =>
    match u.toInstr with
    | some i => exec i s
    | none => .next (runInternal u s)
  | none => .next (engineMove s)

/-- One step. The head of `inbox` is the input that comes now (00_scope.md R8); with none the framer
moves. A refused call and an ignored input are steps like any other. -/
def step (s : State) : Host.Outcome State Fault Refusal :=
  match s.inbox with
  | [] => framerMove s
  | e :: rest =>
    let t := { s with inbox := rest }
    match e with
    | .tick => framerMove t
    | .reset => .next (applyReset t)
    | .start c => exec (.session c) t
    | .cmd i => if i.isCommand then exec i t else .refused .notACommand
    | .frame bs =>
      match decode s.params bs with
      | .ok i => exec i t
      | .error e => .refused (.undecodable e)
    | .drained => .next (takeDrained t)
    | .rx b => .next (receiveWireByte b t)
    | .rxTimeout => .next (takeTimeout t)

/-- The state in which the next step runs the instruction of a table word (log 2): its frame is the
next input. -/
def State.withFetchWord (s : State) (nbits w : Nat) : State :=
  { s with inbox := .frame (frameOfTableWord nbits w) :: s.inbox }

end Sys2Proof.Machine
end

