-- ==== Sys2Proof/Safety.lean ====
section
/-! DEFINITION. The terms the claims are stated in: the invariant of the framer, the inputs a straight
run of micro-operations takes and the trace it leaves. -/

namespace Sys2Proof.Machine

/-! ### The invariant -/

/-- The micro-operation at `UPC` (10_state.md R25). -/
def State.currentUop (s : State) : Option UOp := s.prog[s.upc]?.map Prod.snd

/-- Inside a `uSEND` (41_link.md R151). -/
def State.sending (s : State) : Prop := s.lst = .tx ∨ s.lst = .drain

/-- Inside a `uRECV` (41_link.md R155). -/
def State.receiving (s : State) : Prop := s.lst = .hunt1 ∨ s.lst = .hunt2 ∨ s.lst = .body

/-- Every response received is latched at once: a `uRECV` is followed by the `uREPORT` or `uRDLATCH`
that ends the program (44_session.md R231, 42_commands.md R181). -/
def responsesLatched : List UOp → Prop
  | [] => True
  | .urecv _ :: us => us = [.ureport] ∨ us = [.urdlatch]
  | .ureport :: us | .urdlatch :: us => us = []
  | .uopen _ :: us | .usend _ :: us | .uwait _ :: us | .ubaud _ :: us => responsesLatched us

/-- What holds of the framer at every moment. -/
structure Inv (s : State) : Prop where
  /-- `0 <= UPC <= |PROG|` (10_state.md R25). -/
  upc_le : s.upc ≤ s.prog.length
  /-- A program that is finished is no longer running (10_state.md R27). -/
  busy_upc : s.busy = true → s.upc < s.prog.length
  /-- Before a session nothing is loaded and the Transport is closed (10_state.md R46). -/
  idle_empty : s.phase = .idle → s.prog = [] ∧ s.opn = false
  /-- The tags of a session's program are session states in ascending order (10_state.md R26). -/
  session_tags : s.phase = .session →
    s.prog.Pairwise (fun a b => a.1.number ≤ b.1.number) ∧
      ∀ e ∈ s.prog, 1 ≤ e.1.number ∧ e.1.number ≤ 8
  /-- Every packet to be sent is a frame of 8 to 263 bytes (41_link.md R151). -/
  packets : ∀ t pkt, (t, UOp.usend pkt) ∈ s.prog → 8 ≤ pkt.length ∧ pkt.length ≤ 263
  /-- The window of `RXBUF` ends with the program (10_state.md R37). -/
  latched : responsesLatched (s.prog.map Prod.snd)
  /-- `DIR = TX` exactly inside a `uSEND` (41_link.md R153). -/
  dir_tx : s.dir = .tx ↔ s.sending
  /-- Inside a `uSEND`: the packet is the program's, and `TXI <= TXN = |TXBUF|` (10_state.md R35). -/
  send_regs : s.sending →
    s.currentUop = some (.usend s.txbuf) ∧ s.txn = s.txbuf.length ∧ s.txi ≤ s.txn
  /-- `TXBUF` holds a value only inside a `uSEND` (10_state.md R36, R45). -/
  tx_window : s.txbuf ≠ [] → s.sending
  /-- Draining begins when every byte has been written (41_link.md R151). -/
  drain_txi : s.lst = .drain → s.txi = s.txn
  /-- Inside a `uRECV`: `RXN = 5 + L + 1`, no result yet (10_state.md R35, 41_link.md R155). -/
  recv_regs : s.receiving →
    (∃ len : Byte, s.currentUop = some (.urecv len) ∧ s.rxn = 5 + len.toNat + 1) ∧ s.rxres = .none
  /-- Staging fills `RXBUF` in order, below `RXN` (41_link.md R157). -/
  body_regs : s.lst = .body → s.rxi < s.rxn ∧ s.rxi = s.rxbuf.length
  /-- From `RX_OK` to the end of the `uREPORT` or `uRDLATCH` that follows, the buffer holds a body that
  passed DECODE (10_state.md R37; 41_link.md R155, R157). -/
  accepted : s.rxres = .ok → s.busy = true →
    (s.currentUop = some .ureport ∨ s.currentUop = some .urdlatch) ∧
      s.rxbuf.length = s.rxn ∧ 6 ≤ s.rxn ∧ ∃ f, decodeBody s.rxbuf = .ok f
  /-- `RXBUF` holds a value only while a body is staged and in the window after it (10_state.md R37,
  R45). -/
  rx_window : s.rxbuf ≠ [] → s.lst = .body ∨ (s.rxres = .ok ∧ s.busy = true)
  /-- The deadline runs exactly inside a `uRECV` (60_exceptions.md R276). -/
  deadline : s.rxdl = .running ↔ s.receiving
  /-- A window runs only as the micro-operation in progress (41_link.md R160). -/
  window : ∀ ms, s.timer = some ms → s.lst = .idle ∧ s.currentUop = some (.uwait ms)
  /-- Every micro-operation in progress belongs to a running program (10_state.md R27). -/
  active_busy : s.lst ≠ .idle ∨ s.timer ≠ none → s.busy = true
  /-- The Transport is open once the session has begun with its `uOPEN` (42_commands.md R180,
  44_session.md R234). -/
  opened : s.phase ≠ .idle →
    s.opn = true ∨ (s.phase = .session ∧ s.Between ∧ ∃ i, s.currentUop = some (.uopen i))
  /-- The latched intent is valid (10_state.md R22, R23). -/
  intent_ok : s.phase ≠ .idle → intentValid s.intent = true
  /-- `LASTERR.CODE` is one of the codes that are produced (60_exceptions.md R261). -/
  last_code : s.lasterr.code = 0 ∨ s.lasterr.code = 1 ∨ s.lasterr.code = 2 ∨ s.lasterr.code = 4 ∨
    s.lasterr.code = 5
  /-- A flag is up exactly when there has been an error since `Reset` (10_state.md R39). -/
  err_last : s.err = 0 ↔ s.lasterr.code = 0
  /-- `ST_VALID` and `DONE_MASK[6]` go together, and `ST_DELAY_US` is computed from `ST_DELAY`
  (44_session.md R243). -/
  status : (s.st.valid = true ↔ s.doneMask.getLsbD 6 = true) ∧
    (s.st.valid = true → s.st.delayUs = delayUs s.st.delay)
  /-- The parameters satisfy the constraints of 00_scope.md R6 (log 7). -/
  params_legal : s.params.legal = true

/-! ### What a call leaves -/

/-- After a refused call (60_exceptions.md R263). -/
def State.afterRefusal (s : State) (bit : BitVec 4) (code : BitVec 3) (info : Byte) : State :=
  { s with
    err := s.err ||| bit
    lasterr := ⟨code, info⟩
    trace := s.trace ++ [.refuse code] }

/-- After an accepted command with no read in it (42_commands.md R180): `CMD` latched, the program
loaded with every entry tagged `Done`, the command phase begun. -/
def State.afterCmd (s : State) (cmd : CmdRegs) (ops : List UOp) : State :=
  { s with
    cmd := cmd
    prog := ops.map (Seq.done, ·)
    upc := 0
    rxres := .none
    phase := .cmd
    freeCtr := s.freeCtr + 1 }

/-! ### The line over time -/

/-- The state after `n` steps when the input that comes at moment `m` is `σ m` (00_scope.md R8; `tick`
where none comes). -/
def runUnder (σ : Nat → Input) (s : State) : Nat → Host.Outcome State Fault Refusal
  | 0 => .next s
  | n + 1 =>
    match runUnder σ s n with
    | .next t => step { t with inbox := [σ n] }
    | o => o

/-- The fairness assumption of 00_scope.md R9 (92_eei_decisions.md D26, D30): a waiting SEND eventually
gets `Drained`, and a waiting RECEIVE eventually gets either a byte, which is the framer's move with one
in the Transport's queue, or `RxTimeout`. DESIGN CHOICE (log 15): the spec does not say whether a `Reset`
that ends the wait discharges this; here it does not, and the input is still asked for after it. -/
def FairLine (σ : Nat → Input) (s : State) : Prop :=
  ∀ n t, runUnder σ s n = .next t →
    (t.lst = .drain → ∃ m, n ≤ m ∧ σ m = .drained) ∧
    (t.receiving → ∃ m u, n ≤ m ∧ runUnder σ s m = .next u ∧
      (σ m = .rxTimeout ∨ (σ m = .tick ∧ u.rxFifo ≠ [])))

/-! ### Calls and straight runs -/

end Sys2Proof.Machine

namespace Sys2Proof

open Sys2Proof.Machine

/-- The operands of an instruction's `Cmd` as acceptance tests them (42_commands.md R180): its ID, the
range test of its rule, WRITE's length test. None for what the host cannot call. -/
def Instr.callTests (i : Instr) : Option (Byte × Bool × Bool) :=
  match i with
  | .romcommit id | .reboot id | .freset id | .rdstat id | .rdangle id | .persist id =>
    some (id, true, true)
  | .read id _ _ => some (id, true, true)
  | .setid id v => some (id, newIdInRange v, true)
  | .setrev id r => some (id, rotInRange r, true)
  | .setbaud id idx => some (id, idxInRange idx, true)
  | .setdelay id c => some (id, delayInRange c, true)
  | .torque id en => some (id, torqueInRange en, true)
  | .move id a _ => some (id, angleInRange a, true)
  | .write id _ len data => some (id, true, decide (data.length = len.toNat))
  | .response _ _ _ _ _ _ | .xsum _ | .encode _ _ _ _ _ _ | .decode _ | .reopen _ | .send _
  | .receive _ | .wait _ | .sweep _ | .session _ => none

end Sys2Proof

namespace Sys2Proof.Machine

/-- The micro-operations that take nothing from the line but `Drained`. -/
def UOp.straight : UOp → Bool
  | .uopen _ | .usend _ | .uwait _ | .ubaud _ => true
  | .urecv _ | .ureport | .urdlatch => false

/-- The micro-operation sends a frame. -/
def UOp.isSend : UOp → Bool
  | .usend _ => true
  | .uopen _ | .urecv _ | .uwait _ | .ubaud _ | .ureport | .urdlatch => false

/-- The window of a `uWAIT`, in milliseconds; no other micro-operation has one. -/
def UOp.window : UOp → Nat
  | .uwait ms => ms
  | .uopen _ | .usend _ | .urecv _ | .ubaud _ | .ureport | .urdlatch => 0

/-- The inputs over which a straight micro-operation runs from beginning to completion: the framer's
moves, and `Drained` after a frame's last byte. -/
def UOp.inputs : UOp → List Input
  | .usend pkt => List.replicate (pkt.length + 2) .tick ++ [.drained]
  | .uwait _ => [.tick, .tick]
  | _ => [.tick]

/-- The trace of one frame (41_link.md R151). -/
def frameEvents (pkt : List Byte) : List OutEvent :=
  .dir .tx :: (pkt.map .tx ++ [.dir .rx])

/-- The trace of a straight list of micro-operations, begun with `OPEN = opn`. -/
def straightTrace : Bool → List UOp → List OutEvent
  | _, [] => []
  | opn, .uopen i :: us => (if opn then [.closed] else []) ++ .opened i :: straightTrace true us
  | opn, .usend pkt :: us => frameEvents pkt ++ straightTrace opn us
  | opn, .uwait ms :: us => .delay ms :: straightTrace opn us
  | opn, _ :: us => straightTrace opn us

/-- The micro-operations of a program not yet completed. -/
def State.remaining (s : State) : List UOp := (s.prog.drop s.upc).map Prod.snd

end Sys2Proof.Machine
end

