-- ==== Sys2Proof/Certificates/Slice0/Obligations.lean ====
section
/-! DEFINITION. The statements for the provers. Each docstring names the rule of spec/ it formalises, or
says that it is the model's choice and names the log entry. -/

open Sys2Proof Sys2Proof.Machine

/-! ### The codec -/

/-- XSUM is the bytewise exclusive-or, with R130's corner cases (40_codec.md R130). The field of the
model that holds the result is log 8. -/
def Obligations.XsumIsBytewiseXor : Prop :=
  ∀ (s : State) (bs cs : List Byte) (b : Byte),
    exec (.xsum bs) s = .next { s with codecOut := .checksum (xsum bs) } ∧
    xsum [] = 0x00 ∧ xsum (b :: bs) = b ^^^ xsum bs ∧ xsum [b] = b ∧
    xsum (bs ++ [xsum bs]) = 0x00 ∧ xsum (bs ++ cs) = xsum bs ^^^ xsum cs ∧
    (bs.Perm cs → xsum bs = xsum cs) ∧
    xsum [0xFF, 0x00, 0x04, 0x01, 0x01, 0x05] = 0xFE

/-- ENCODE builds the request frame, for any arguments (40_codec.md R131). -/
def Obligations.EncodeBuildsRequestFrame : Prop :=
  ∀ (s : State) (id flags addr len count : Byte) (payload : List Byte),
    ∃ p : List Byte,
      exec (.encode id flags addr len count payload) s = .next { s with codecOut := .packet p } ∧
      p = [0xFA, 0xAF, id, flags, addr, len, count] ++ payload ++
        [xsum ([id, flags, addr, len, count] ++ payload)] ∧
      p.length = 8 + payload.length

/-- DECODE: `Malformed` below six bytes, else the checksum test and the fields (40_codec.md R133). -/
def Obligations.DecodeChecksAndSplits : Prop :=
  ∀ (s : State) (body : List Byte),
    exec (.decode body) s = .next { s with codecOut := .decoded (decodeBody body) } ∧
    (body.length < 6 → decodeBody body = .malformed) ∧
    (6 ≤ body.length → ∃ id flags addr len count payload cs,
      body = [id, flags, addr, len, count] ++ payload ++ [cs] ∧
      (xsum ([id, flags, addr, len, count] ++ payload) = cs ↔ xsum body = 0x00) ∧
      (xsum ([id, flags, addr, len, count] ++ payload) = cs →
        decodeBody body = .ok ⟨id, flags, addr, len, count, payload⟩) ∧
      (xsum ([id, flags, addr, len, count] ++ payload) ≠ cs →
        decodeBody body = .checksumMismatch))

/-- The round trip of the codec, for every argument (40_codec.md R134). -/
def Obligations.DecodeRecoversEncodedFields : Prop :=
  ∀ (id flags addr len count : Byte) (payload : List Byte),
    let p := encodeFrame id flags addr len count payload
    p[0]? = some 0xFA ∧ p[1]? = some 0xAF ∧
      decodeBody (p.drop 2) = .ok ⟨id, flags, addr, len, count, payload⟩

/-- A corrupted body fails DECODE exactly when the exclusive-or of the flipped masks is not zero; one
flipped bit always fails; two flips in one bit position of two bytes do not (40_codec.md R135). -/
def Obligations.CorruptionDetection : Prop :=
  ∀ (b : List Byte) (f : Fields), decodeBody b = .ok f →
    (∀ b' : List Byte, b'.length = b.length →
      (decodeBody b' = .checksumMismatch ↔ xsum (List.zipWith (· ^^^ ·) b b') ≠ 0x00)) ∧
    (∀ (k j : Nat) (v : Byte), b[k]? = some v → j < 8 →
      decodeBody (b.set k (v ^^^ BitVec.twoPow 8 j)) = .checksumMismatch) ∧
    (∀ (k k' j : Nat) (v v' : Byte), k ≠ k' → b[k]? = some v → b[k']? = some v' → j < 8 →
      ∃ g, decodeBody ((b.set k (v ^^^ BitVec.twoPow 8 j)).set k' (v' ^^^ BitVec.twoPow 8 j)) = .ok g)

/-- Every frame in a program, of a session or of an accepted command, is ENCODE's output with
`Length * Count` payload bytes and well-formed arguments (30_encoding.md R99, 40_codec.md R132). -/
def Obligations.ProgramFramesAreWellFormed : Prop :=
  ∀ (s t : State) (i : Instr) (e : Seq × UOp) (pkt : List Byte),
    (i.isCommand = true ∨ ∃ c, i = .session c) → exec i s = .next t → t.prog ≠ s.prog →
    e ∈ t.prog → e.2 = .usend pkt →
    ∃ id flags addr len count payload,
      pkt = encodeFrame id flags addr len count payload ∧
      payload.length = len.toNat * count.toNat ∧ encodeOk flags len count payload = true

/-! ### Frames and instructions -/

/-- Decoding an encoded well-formed instruction gives it back, for every instruction with a frame, at
every operand; a WRITE or READ that a named command spells is named by that command instead
(30_encoding.md R111, R116). -/
def Obligations.DecodeOfEncodedInstruction : Prop :=
  ∀ (p : Params) (i : Instr) (bs : List Byte),
    i.wf p = true → i.mostSpecific p = true → encode p i = some bs → decode p bs = .ok i

/-- Every frame the decoder accepts is the encoding of what it answers, named most specifically
(30_encoding.md R111, R116). -/
def Obligations.EncodeOfDecodedFrame : Prop :=
  ∀ (p : Params) (bs : List Byte) (i : Instr),
    decode p bs = .ok i → encode p i = some bs ∧ i.mostSpecific p = true

/-- What the decoder accepts matches the `mask` and `match` of its row of spec/opcode_table.json over
the head word (30_encoding.md R92). -/
def Obligations.DecodedFramesMatchTableRow : Prop :=
  ∀ (p : Params) (bs : List Byte) (i : Instr) (mask mtch : Nat),
    decode p bs = .ok i → tableRow p i = some (mask, mtch) → headWord bs &&& mask = mtch

/-- The named commands are WRITE and READ with fixed operands (30_encoding.md R113, R116). -/
def Obligations.NamedCommandsAreWritesAndReads : Prop :=
  ∀ (p : Params) (id v : Byte) (angle : Int) (time : Half),
    encode p (.setid id v) = encode p (.write id 0x04 1 [v]) ∧
    encode p (.setrev id v) = encode p (.write id 0x05 1 [v]) ∧
    encode p (.setbaud id v) = encode p (.write id 0x06 1 [v]) ∧
    encode p (.setdelay id v) = encode p (.write id 0x07 1 [v]) ∧
    encode p (.torque id v) = encode p (.write id 0x24 1 [v]) ∧
    encode p (.move id angle time) =
      encode p (.write id 0x1E 4 (le16 (tc16 angle) ++ le16 time)) ∧
    encode p (.rdstat id) = encode p (.read id 0x04 p.statusLen) ∧
    encode p (.rdangle id) = encode p (.read id 0x2A p.angleLen)

/-- Frames written out from 42_commands.md decode to their commands. That a frame with a wrong checksum
(30_encoding.md R100) is rejected under that name is the decoder's choice (log 16). -/
def Obligations.SampleFramesDecode : Prop :=
  decode Params.default [0xFA, 0xAF, 0xFF, 0x40, 0xFF, 0x00, 0x00, 0x40] = .ok (.romcommit 255) ∧
  decode Params.default [0xFA, 0xAF, 0xFF, 0x10, 0xFF, 0xFF, 0x00, 0xEF] = .ok (.freset 255) ∧
  decode Params.default [0xFA, 0xAF, 0xFF, 0x00, 0x04, 0x01, 0x01, 0x05, 0xFE] =
    .ok (.setid 255 5) ∧
  decode Params.default [0xFA, 0xAF, 0x01, 0x00, 0x1E, 0x04, 0x01, 0xA8, 0xFD, 0x64, 0x00, 0x2B] =
    .ok (.move 1 (-600) 100) ∧
  decode Params.default [0xFA, 0xAF, 0x01, 0x00, 0x1E, 0x02, 0x01, 0xA8, 0xFD, 0x49] =
    .ok (.write 1 0x1E 2 [0xA8, 0xFD]) ∧
  decode Params.default [0xFA, 0xAF, 0xFF, 0x0F, 0x04, 0x04, 0x00, 0xF0] = .ok (.rdstat 255) ∧
  decode Params.default [0xFA, 0xAF, 0xFF, 0x40, 0xFF, 0x00, 0x00, 0x41] = .error .badChecksum

/-- MOVE's payload is the little-endian two's-complement angle and the little-endian time code
(30_encoding.md R104), and reading two bytes back is R106's conversion, which inverts it. -/
def Obligations.MovePayloadAndAngleReadback : Prop :=
  (∀ lo hi : Byte, angleOf lo hi =
    if lo.toNat + 256 * hi.toNat < 32768 then ((lo.toNat + 256 * hi.toNat : Nat) : Int)
    else ((lo.toNat + 256 * hi.toNat : Nat) : Int) - 65536) ∧
  ∀ (angle : Int) (time : Half), -32768 ≤ angle → angle ≤ 32767 →
    ∃ aL aH tL tH : Byte,
      movePayload angle time = [aL, aH, tL, tH] ∧
      ((aL.toNat + 256 * aH.toNat : Nat) : Int) = (if 0 ≤ angle then angle else 65536 + angle) ∧
      tL.toNat + 256 * tH.toNat = time.toNat ∧
      angleOf aL aH = angle

/-- `delay_us(c) = 100 + 50 * c`, the value of `OUT_DELAY_US` and `ST_DELAY_US` (30_encoding.md R108;
10_state.md R41, R42). -/
def Obligations.ReplyDelayConversion : Prop :=
  ∀ (s : State) (c : Byte),
    (delayUs c).toNat = 100 + 50 * c.toNat ∧ (delayUs c).toNat ≤ 12850 ∧
      s.outDelayUs = delayUs s.intent.delay

/-- The baud table: twelve rates, strictly ascending with the index (10_state.md R30). -/
def Obligations.BaudTableAscends : Prop :=
  List.ofFn baudRate =
    [9600, 14400, 19200, 28800, 38400, 57600, 76800, 115200, 153600, 230400, 460800, 691200] ∧
  ∀ i j : BaudIdx, i < j → baudRate i < baudRate j

/-! ### Calling a command -/

/-- SETID, SETREV, SETBAUD, SETDELAY and TORQUE, in the ready phase with their operands in range, are
accepted: one frame to send, nothing else changed but the command port (42_commands.md R180, R187 to
R191). Operands the operation lacks have any value; where the byte stands in CMD is log 13. -/
def Obligations.OneByteWritesAccepted : Prop :=
  ∀ (s : State) (id v : Byte), s.phase = .ready → validId id = true →
    let accepted (i : Instr) (op : CmdOp) (addr : Byte) : Prop :=
      ∃ (a l : Byte) (an ti : Half), exec i s = .next (s.afterCmd ⟨op, id, a, l, [v], an, ti⟩
        [.usend [0xFA, 0xAF, id, 0x00, addr, 0x01, 0x01, v,
          id ^^^ 0x00 ^^^ addr ^^^ 0x01 ^^^ 0x01 ^^^ v]])
    (1 ≤ v.toNat → v.toNat ≤ 127 → accepted (.setid id v) .setid 0x04) ∧
    (v.toNat ≤ 1 → accepted (.setrev id v) .setrev 0x05) ∧
    (v.toNat ≤ 11 → accepted (.setbaud id v) .setbaud 0x06) ∧
    (v.toNat ≤ 127 → accepted (.setdelay id v) .setdelay 0x07) ∧
    (v.toNat ≤ 1 → accepted (.torque id v) .torque 0x24)

/-- MOVE with its angle in range is accepted: the frame carries the angle and the time low byte first
(42_commands.md R180, R192). -/
def Obligations.MoveAccepted : Prop :=
  ∀ (s : State) (id : Byte) (angle : Int) (time : Half), s.phase = .ready → validId id = true →
    -32768 ≤ angle → angle ≤ 32767 →
    ∃ (a l aL aH tL tH : Byte) (pat : Half),
      pat.toInt = angle ∧ pat.toNat = aL.toNat + 256 * aH.toNat ∧
      time.toNat = tL.toNat + 256 * tH.toNat ∧
      exec (.move id angle time) s = .next (s.afterCmd ⟨.move, id, a, l, [], pat, time⟩
        [.usend [0xFA, 0xAF, id, 0x00, 0x1E, 0x04, 0x01, aL, aH, tL, tH,
          id ^^^ 0x00 ^^^ 0x1E ^^^ 0x04 ^^^ 0x01 ^^^ aL ^^^ aH ^^^ tL ^^^ tH]])

/-- WRITE with `len` data bytes is accepted at every address and length, its data sent as given
(42_commands.md R180, R182). -/
def Obligations.WriteAccepted : Prop :=
  ∀ (s : State) (id addr len : Byte) (data : List Byte), s.phase = .ready → validId id = true →
    data.length = len.toNat →
    ∃ an ti : Half, exec (.write id addr len data) s =
      .next (s.afterCmd ⟨.write, id, addr, len, data, an, ti⟩
        [.usend ([0xFA, 0xAF, id, 0x00, addr, len, 0x01] ++ data ++
          [xsum ([id, 0x00, addr, len, 0x01] ++ data)])])

/-- ROMCOMMIT, REBOOT, FRESET and PERSIST are accepted with the frames and the windows of their rules
(42_commands.md R180, R184, R185, R186, R195). -/
def Obligations.ControlCommandsAccepted : Prop :=
  ∀ (s : State) (id : Byte), s.phase = .ready → validId id = true →
    let commit : List UOp := [.usend [0xFA, 0xAF, id, 0x40, 0xFF, 0x00, 0x00, id ^^^ 0x40 ^^^ 0xFF],
      .uwait s.params.tCommitMs]
    let reboot : List UOp := [.usend [0xFA, 0xAF, id, 0x20, 0xFF, 0x00, 0x00, id ^^^ 0x20 ^^^ 0xFF],
      .uwait s.params.tRebootMs]
    let accepted (i : Instr) (op : CmdOp) (ops : List UOp) : Prop :=
      ∃ (a l : Byte) (an ti : Half),
        exec i s = .next (s.afterCmd ⟨op, id, a, l, [], an, ti⟩ ops)
    accepted (.romcommit id) .romcommit commit ∧
    accepted (.reboot id) .reboot reboot ∧
    accepted (.persist id) .persist (commit ++ reboot) ∧
    accepted (.freset id) .freset
      [.usend [0xFA, 0xAF, id, 0x10, 0xFF, s.params.resetLen, 0x00,
        id ^^^ 0x10 ^^^ 0xFF ^^^ s.params.resetLen]]

/-- READ, RDSTAT and RDANGLE are accepted: the request, the receive of `len` payload bytes and the latch
are loaded, and `RD_VALID` falls; the other `RD_*` have any value then (42_commands.md R180, R181, R193,
R194; 10_state.md R43). -/
def Obligations.ReadsAccepted : Prop :=
  ∀ (s : State) (id addr len : Byte), s.phase = .ready → validId id = true →
    let ops (addr len : Byte) : List UOp :=
      [.usend [0xFA, 0xAF, id, 0x0F, addr, len, 0x00, id ^^^ 0x0F ^^^ addr ^^^ len],
        .urecv len, .urdlatch]
    let accepted (i : Instr) (op : CmdOp) (a l addr len : Byte) : Prop :=
      ∃ (an ti : Half) (r1 r2 r3 r4 r5 : Byte) (rs : List Byte), exec i s =
        .next { s.afterCmd ⟨op, id, a, l, [], an, ti⟩ (ops addr len) with
          rd := ⟨false, r1, r2, r3, r4, r5, rs⟩ }
    accepted (.read id addr len) .read addr len addr len ∧
    (∃ a l, accepted (.rdstat id) .rdstat a l 0x04 s.params.statusLen) ∧
    (∃ a l, accepted (.rdangle id) .rdangle a l 0x2A s.params.angleLen)

/-- A command is refused by the first failing test of R180's order, with nothing changed but the flag,
`LASTERR` and the event; with every test passed it is accepted (42_commands.md R180). -/
def Obligations.CommandTestOrder : Prop :=
  ∀ (i : Instr) (s : State) (id : Byte) (inRange lengthOk : Bool),
    i.callTests = some (id, inRange, lengthOk) →
    (s.phase ≠ .ready → exec i s = .next (s.afterRefusal 0b1000 5 1)) ∧
    (s.phase = .ready → validId id = false → exec i s = .next (s.afterRefusal 0b1000 5 2)) ∧
    (s.phase = .ready → validId id = true → inRange = false →
      exec i s = .next (s.afterRefusal 0b1000 5 3)) ∧
    (s.phase = .ready → validId id = true → inRange = true → lengthOk = false →
      exec i s = .next (s.afterRefusal 0b1000 5 4)) ∧
    (s.phase = .ready → validId id = true → inRange = true → lengthOk = true →
      ∃ t, exec i s = .next t ∧ t.phase = .cmd ∧ t.upc = 0 ∧ t.rxres = .none ∧ t.cmd.id = id ∧
        t.prog ≠ [] ∧ ∀ e ∈ t.prog, e.1 = .done)

/-- `valid_id` (42_commands.md R183). -/
def Obligations.ValidIdRange : Prop :=
  ∀ id : Byte, validId id = true ↔ (1 ≤ id.toNat ∧ id.toNat ≤ 127) ∨ id.toNat = 255

/-- A `Start` or `Cmd` presented while a program runs is refused and disturbs nothing: it changes the
flag, `LASTERR` and the trace, and the program goes on (60_exceptions.md R263). -/
def Obligations.RefusalLeavesRunningProgram : Prop :=
  ∀ (s : State) (c : Intent) (i : Instr) (rest : List Input), s.busy = true →
    (s.inbox = .start c :: rest →
      step s = .next ({ s with inbox := rest }.afterRefusal 0b0100 4 3)) ∧
    (s.inbox = .cmd i :: rest → i.isCommand = true →
      step s = .next ({ s with inbox := rest }.afterRefusal 0b1000 5 1))

/-! ### The link engine -/

/-- REOPEN: `Close` if open, `Open(i)`, and the micro-operation completes (41_link.md R150). What
completing does is `MicroOperationCompletes`. That the Transport's receive queue stays as it is, which
R150 leaves open, is the model's choice (log 9), and so is REOPEN run outside a program, with no program
counter to advance (log 10). -/
def Obligations.ReopenEffect : Prop :=
  ∀ (s : State) (i : BaudIdx), s.lst = .idle → s.dir = .rx → s.timer = none →
    exec (.reopen i) s = .next (completeUop
      { s with
        opn := true
        curBaud := i
        trace := s.trace ++ ((if s.opn then [.closed] else []) ++ [.opened i]) })

/-- SEND begins: the packet is latched and the line turned to transmit (41_link.md R151, R164). That it
begins the same way outside a program is the model's choice (log 10). -/
def Obligations.SendBegins : Prop :=
  ∀ (s : State) (pkt : List Byte), s.lst = .idle → s.dir = .rx → s.timer = none → s.opn = true →
    exec (.send pkt) s = .next
      { s with
        txbuf := pkt
        txn := pkt.length
        txi := 0
        dir := .tx
        lst := .tx
        trace := s.trace ++ [.dir .tx] }

/-- One `uSEND`, from its beginning to its completion: the trace is exactly `Dir(TX)`, the bytes in
order, `Dir(RX)`, with `Drained` consumed before `Dir(RX)`; a `Drained` that comes in any other state is
ignored (41_link.md R151). The schedule is log 1; `TXBUF` holds no value after it (10_state.md R36,
log 5). -/
def Obligations.SendPutsFrameOnWire : Prop :=
  (∀ (s : State) (pkt : List Byte) (rest : List Input),
    s.busy = true → s.lst = .idle → s.dir = .rx → s.timer = none → s.opn = true →
    s.currentUop = some (.usend pkt) →
    s.inbox = List.replicate (pkt.length + 2) .tick ++ .drained :: rest →
    Host.Core.run core (pkt.length + 3) s = .next (completeUop
      { s with
        txbuf := []
        freeCtr := s.freeCtr + 1
        txn := pkt.length
        txi := pkt.length
        inbox := rest
        trace := s.trace ++ (.dir .tx :: (pkt.map .tx ++ [.dir .rx])) })) ∧
  ∀ (s : State) (rest : List Input), s.inbox = .drained :: rest → s.lst ≠ .drain →
    step s = .next { s with inbox := rest }

/-- A Transport that never drains leaves the framer in `L_DRAIN`, transmitting: a stuck state
(41_link.md R166). That a stuck state is one whose steps change nothing is the model's choice (log 15).
Under the fairness of 00_scope.md R9 no wait is stuck: unless `Reset` comes first, a waiting SEND gets its
`Drained` and releases the line, and a waiting RECEIVE takes a byte or ends with `RX_TIMEOUT`. -/
def Obligations.UndrainedSendIsStuck : Prop :=
  (∀ (s : State) (k n : Nat), s.lst = .drain → s.inbox = List.replicate n .tick →
    Host.Core.run core k s = .next { s with inbox := List.replicate (n - k) .tick }) ∧
  ∀ (σ : Nat → Input) (s t : State) (n : Nat), FairLine σ s → (∀ m, σ m ≠ .reset) →
    (∀ m, ∃ u, runUnder σ s m = .next u) → runUnder σ s n = .next t →
    (t.lst = .drain → ∃ m u v, n ≤ m ∧ runUnder σ s m = .next u ∧ u.lst = .drain ∧
      runUnder σ s (m + 1) = .next v ∧ v.lst = .idle ∧ v.dir = .rx ∧
      v.trace = u.trace ++ [.dir .rx]) ∧
    (t.receiving → ∃ m u v, n ≤ m ∧ runUnder σ s m = .next u ∧ u.receiving ∧
      runUnder σ s (m + 1) = .next v ∧
      ((σ m = .tick ∧ ∃ b, u.rxFifo = b :: v.rxFifo) ∨
        (σ m = .rxTimeout ∧ v.lst = .idle ∧ v.rxres = .timeout)))

/-- RECEIVE begins: `RXN = 5 + L + 1`, no result, the deadline started, the hunt begun (41_link.md
R155, R164). That it begins the same way outside a program is the model's choice (log 10). -/
def Obligations.ReceiveBegins : Prop :=
  ∀ (s : State) (len : Byte), s.lst = .idle → s.dir = .rx → s.timer = none →
    exec (.receive len) s = .next
      { s with rxn := 5 + len.toNat + 1, rxres := .none, rxdl := .running, lst := .hunt1 }

/-- The header hunt, row by row (41_link.md R156). -/
def Obligations.HeaderHuntTable : Prop :=
  ∀ (s : State) (b : Byte) (rest : List Byte), s.inbox = [] → s.rxFifo = b :: rest →
    (s.lst = .hunt1 → b = 0xFD → step s = .next { s with rxFifo := rest, lst := .hunt2 }) ∧
    (s.lst = .hunt1 → b ≠ 0xFD → step s = .next { s with rxFifo := rest }) ∧
    (s.lst = .hunt2 → b = 0xDF → step s = .next { s with rxFifo := rest, lst := .body, rxi := 0 }) ∧
    (s.lst = .hunt2 → b = 0xFD → step s = .next { s with rxFifo := rest }) ∧
    (s.lst = .hunt2 → b ≠ 0xDF → b ≠ 0xFD →
      step s = .next { s with rxFifo := rest, lst := .hunt1 })

/-- Staging a body byte, and the check when `RXI = RXN`: accepted, or `ChecksumMismatch` and the hunt
again, with no byte of `RXBUF` holding a value (41_link.md R157, 10_state.md R37). That `RXBUF` is the
list of its bytes that hold a value is log 5. -/
def Obligations.StagingAndCheck : Prop :=
  ∀ (s : State) (b : Byte) (rest : List Byte), s.inbox = [] → s.rxFifo = b :: rest →
    s.lst = .body → s.rxi ≤ s.rxbuf.length →
    let body := s.rxbuf.take s.rxi ++ [b]
    let staged := { s with rxFifo := rest, rxbuf := body, rxi := s.rxi + 1 }
    (s.rxi + 1 < s.rxn → step s = .next staged) ∧
    (s.rxi + 1 = s.rxn → (∃ f, decodeBody body = .ok f) →
      step s = .next (completeUop { staged with rxres := .ok, rxdl := .stopped, lst := .idle })) ∧
    (s.rxi + 1 = s.rxn → (∀ f, decodeBody body ≠ .ok f) →
      step s = .next
        { staged with
          rxbuf := []
          freeCtr := s.freeCtr + 1
          err := s.err ||| 0b0001
          lasterr := ⟨1, 0⟩
          trace := s.trace ++ [.err 1 0]
          lst := .hunt1 })

/-- The receive deadline ends a `uRECV` with `HeaderSyncTimeout`, information 0 while hunting and 1
while staging, and no byte of `RXBUF` holds a value after it (41_link.md R158; 10_state.md R37,
log 5). -/
def Obligations.TimeoutEndsReceive : Prop :=
  ∀ (s : State) (rest : List Input), s.inbox = .rxTimeout :: rest → s.receiving →
    ∃ info : Byte, (s.lst = .hunt1 ∨ s.lst = .hunt2 → info = 0) ∧ (s.lst = .body → info = 1) ∧
      step s = .next (completeUop
        { s with
          inbox := rest
          err := s.err ||| 0b0010
          lasterr := ⟨2, info⟩
          trace := s.trace ++ [.err 2 info]
          rxres := .timeout
          rxbuf := []
          freeCtr := s.freeCtr + 1
          rxdl := .stopped
          lst := .idle })

/-- A valid response waiting in the Transport's queue is hunted, staged and accepted, and what comes
after it stays in the queue (41_link.md R155, R156, R157, R161). -/
def Obligations.ValidResponseAccepted : Prop :=
  ∀ (s : State) (body rest : List Byte) (f : Fields), s.inbox = [] → s.lst = .hunt1 →
    s.rxFifo = [0xFD, 0xDF] ++ body ++ rest → body.length = s.rxn → decodeBody body = .ok f →
    Host.Core.run core (2 + s.rxn) s = .next (completeUop
      { s with
        rxFifo := rest
        rxbuf := body
        rxi := s.rxn
        rxres := .ok
        rxdl := .stopped
        lst := .idle })

/-- WAIT: `Delay(ms)` begins the window, and the framer's next move ends it (41_link.md R160). That the
window is in progress between the two is the model's reading (log 6), and that both happen the same way
outside a program its choice (log 10). -/
def Obligations.WaitWindow : Prop :=
  (∀ (s : State) (ms : Nat), s.lst = .idle → s.dir = .rx → s.timer = none →
    exec (.wait ms) s = .next { s with timer := some ms, trace := s.trace ++ [.delay ms] }) ∧
  ∀ (s : State) (ms : Nat), s.lst = .idle → s.timer = some ms → s.inbox = [] →
    step s = .next (completeUop { s with timer := none })

/-- Begun while another micro-operation is in progress, a link operation stops by name, and so does SEND
with the Transport closed: the preconditions of 41_link.md R150, R151, R155 fail and no rule gives an
effect. That this is a fault is the model's choice (log 10). -/
def Obligations.LinkPreconditionFaults : Prop :=
  ∀ (s : State) (i : BaudIdx) (pkt : List Byte) (len : Byte) (ms : Nat),
    (¬ s.Between → exec (.reopen i) s = .fault .linkBusy ∧ exec (.send pkt) s = .fault .linkBusy ∧
      exec (.receive len) s = .fault .linkBusy ∧ exec (.wait ms) s = .fault .linkBusy) ∧
    (s.Between → s.opn = false → exec (.send pkt) s = .fault .transportClosed)

/-- A response frame on the line: its bytes wait in the Transport's queue, header first, checksum last
(30_encoding.md R91, 20_memory.md R67). The queue as a field is log 9. -/
def Obligations.ResponseBytesAreQueued : Prop :=
  ∀ (s : State) (id flags addr len count : Byte) (payload : List Byte),
    exec (.response id flags addr len count payload) s = .next
      { s with rxFifo := s.rxFifo ++ ([0xFD, 0xDF, id, flags, addr, len, count] ++ payload ++
          [xsum ([id, flags, addr, len, count] ++ payload)]) }

/-- The line is turned to transmit only to begin the `uSEND` at `UPC`, with every earlier
micro-operation complete (20_memory.md R76). -/
def Obligations.TransmitBeginsOnlyBetweenMicroOperations : Prop :=
  ∀ s t : State, step s = .next t → s.dir = .rx → t.dir = .tx →
    s.busy = true ∧ s.Between ∧ s.opn = true ∧
      (∃ pkt, s.currentUop = some (.usend pkt) ∧ t.txbuf = pkt) ∧
      t.trace = s.trace ++ [.dir .tx] ∧ t.upc = s.upc

/-! ### The program counter -/

/-- A micro-operation completes: `UPC` advances, a finished program ends its phase, a session step's
last micro-operation sets its `DONE_MASK` bit, and nothing else changes (10_state.md R25, R27;
44_session.md R247). The phase falling in the same move is log 12. -/
def Obligations.MicroOperationCompletes : Prop :=
  ∀ (s : State) (tag : Seq) (u : UOp), s.busy = true → s.prog[s.upc]? = some (tag, u) →
    ∃ mask : BitVec 7,
      completeUop s =
        { s with
          upc := s.upc + 1
          phase := if s.upc + 1 = s.prog.length then .ready else s.phase
          doneMask := mask } ∧
      (s.phase = .session → s.prog[s.upc + 1]?.map Prod.fst ≠ some tag →
        mask = s.doneMask ||| tag.doneBit) ∧
      (s.phase = .cmd ∨ s.prog[s.upc + 1]?.map Prod.fst = some tag → mask = s.doneMask)

/-- With no input pending the framer runs the micro-operation at `UPC`: `uOPEN`, `uSEND`, `uRECV` and
`uWAIT` are the instructions of the table, `uBAUD(i)` writes `BAUD` (00_scope.md R11, 44_session.md
R237). -/
def Obligations.StepRunsMicroOperation : Prop :=
  ∀ (s : State) (u : UOp), s.busy = true → s.Between → s.currentUop = some u → s.inbox = [] →
    (∀ i, u = .uopen i → step s = exec (.reopen i) s) ∧
    (∀ pkt, u = .usend pkt → step s = exec (.send pkt) s) ∧
    (∀ len, u = .urecv len → step s = exec (.receive len) s) ∧
    (∀ ms, u = .uwait ms → step s = exec (.wait ms) s) ∧
    (∀ i, u = .ubaud i → step s = .next (completeUop { s with baud := i }))

/-- A step runs the instruction it is given: the command or the intent presented, or the instruction the
bytes presented decode to, exactly as `exec` says, with that input consumed (log 1, log 2). -/
def Obligations.StepRunsDecodedInstruction : Prop :=
  ∀ (s : State) (rest : List Input) (i : Instr),
    (∀ bs, s.inbox = .frame bs :: rest → decode s.params bs = .ok i →
      step s = exec i { s with inbox := rest }) ∧
    (s.inbox = .cmd i :: rest → i.isCommand = true → step s = exec i { s with inbox := rest }) ∧
    (∀ c, s.inbox = .start c :: rest → step s = exec (.session c) { s with inbox := rest })

/-- `uREPORT` surfaces the four status bytes of an accepted response, and nothing after a timeout
(44_session.md R243). After it no byte of `RXBUF` holds a value (10_state.md R37; the empty list and the
counter are the model's, log 4, log 5). -/
def Obligations.ReportSurfacesStatus : Prop :=
  ∀ s : State, s.busy = true → s.Between → s.currentUop = some .ureport → s.inbox = [] →
    (∀ (b0 b1 b2 b3 b4 i r b d : Byte) (rest : List Byte), s.rxres = .ok →
      s.rxbuf = [b0, b1, b2, b3, b4, i, r, b, d] ++ rest →
      ∃ us : Half, us.toNat = 100 + 50 * d.toNat ∧
        step s = .next (completeUop
          { s with
            st := ⟨true, i, r, b, d, us⟩
            rxbuf := []
            freeCtr := s.freeCtr + 1
            doneMask := s.doneMask ||| 0b1000000
            trace := s.trace ++ [.status i r b d] })) ∧
    (s.rxres ≠ .ok →
      step s = .next (completeUop { s with rxbuf := [], freeCtr := s.freeCtr + 1 }))

/-- `uRDLATCH` surfaces a direct READ's response: the five field bytes and the request's `L` payload
bytes, and nothing after a timeout (42_commands.md R181). After it no byte of `RXBUF` holds a value
(10_state.md R37; log 4, log 5). -/
def Obligations.ReadLatchSurfacesResponse : Prop :=
  ∀ s : State, s.busy = true → s.Between → s.currentUop = some .urdlatch → s.inbox = [] →
    (∀ (i f a l c : Byte) (payload rest : List Byte), s.rxres = .ok →
      s.rxbuf = [i, f, a, l, c] ++ payload ++ rest → s.rxn = 5 + payload.length + 1 →
      step s = .next (completeUop
        { s with
          rd := ⟨true, i, f, a, l, c, payload⟩
          rxbuf := []
          freeCtr := s.freeCtr + 1
          trace := s.trace ++ [.rdData i f a l c payload] })) ∧
    (s.rxres ≠ .ok →
      step s = .next (completeUop { s with rxbuf := [], freeCtr := s.freeCtr + 1 }))

/-! ### The session and the sweep -/

/-- `Start(intent)`: refused by the first failing test, or accepted with the intent latched, `BAUD` at
the target and the session's program loaded (44_session.md R230). -/
def Obligations.SessionStart : Prop :=
  ∀ (s : State) (c : Intent),
    (s.phase ≠ .idle → exec (.session c) s = .next (s.afterRefusal 0b0100 4 3)) ∧
    (s.phase = .idle → 11 < c.tbaud.toNat →
      exec (.session c) s = .next (s.afterRefusal 0b0100 4 1)) ∧
    (s.phase = .idle → c.tbaud.toNat ≤ 11 → 127 < c.newid.toNat →
      exec (.session c) s = .next (s.afterRefusal 0b0100 4 2)) ∧
    (s.phase = .idle → c.tbaud.toNat ≤ 11 → c.newid.toNat ≤ 127 →
      ∃ i : BaudIdx, i.val = c.tbaud.toNat ∧
        exec (.session c) s = .next
          { s with
            intent := c
            baud := i
            prog := sessionProgram s.params c
            upc := 0
            rxres := .none
            phase := .session })

/-- The session's program: the states in their fixed order, each present or absent by its test of the
intent, with the frames of their rules (44_session.md R231). -/
def Obligations.SessionProgramOrder : Prop :=
  ∀ (p : Params) (c : Intent), intentValid c = true →
    ∃ target : BaudIdx, target.val = c.tbaud.toNat ∧
    let B := p.sessionId
    let frame (id flags addr len count : Byte) (payload : List Byte) : UOp :=
      .usend ([0xFA, 0xAF, id, flags, addr, len, count] ++ payload ++
        [xsum ([id, flags, addr, len, count] ++ payload)])
    let persist : List UOp := [frame B 0x40 0xFF 0x00 0x00 [], .uwait p.tCommitMs,
      frame B 0x20 0xFF 0x00 0x00 [], .uwait p.tRebootMs]
    let tag (t : Seq) (us : List UOp) : List (Seq × UOp) := us.map (t, ·)
    sessionProgram p c =
      (if c.sweep then sweepProgram p target else []) ++
      tag .baudOpen [.uopen target] ++
      (if c.reset then tag .factoryReset (frame B 0x10 0xFF p.resetLen 0x00 [] :: persist ++
        [.ubaud 7, .uopen 7]) else []) ++
      (if c.newid ≠ 0 then tag .setID (frame B 0x00 0x04 0x01 0x01 [c.newid] :: persist) else []) ++
      (if c.delay.toNat ≤ 127 then
        tag .setReplyDelay (frame B 0x00 0x07 0x01 0x01 [c.delay] :: persist) else []) ++
      (if c.rot.toNat ≤ 1 then
        tag .setRotationSense (frame B 0x00 0x05 0x01 0x01 [c.rot] :: persist) else []) ++
      tag .torqueEnable [frame 0xFF 0x00 0x24 0x01 0x01 [0x01]] ++
      (if c.statusEn then tag .statusReport [frame B 0x0F 0x04 p.statusLen 0x00 [],
        .urecv p.statusLen, .ureport] else [])

/-- The length of the session's program and the number of its frames, with their bounds, which are
reached (44_session.md R246). -/
def Obligations.SessionProgramLength : Prop :=
  (∀ (p : Params) (c : Intent),
    let frames := ((sessionProgram p c).filter fun e => e.2.isSend).length
    (sessionProgram p c).length =
      72 * (if c.sweep then 1 else 0) + 1 + 7 * (if c.reset then 1 else 0) +
        5 * (if c.newid ≠ 0 then 1 else 0) + 5 * (if c.delay.toNat ≤ 127 then 1 else 0) +
        5 * (if c.rot.toNat ≤ 1 then 1 else 0) + 1 + 3 * (if c.statusEn then 1 else 0) ∧
    frames =
      36 * (if c.sweep then 1 else 0) + 3 * (if c.reset then 1 else 0) +
        3 * (if c.newid ≠ 0 then 1 else 0) + 3 * (if c.delay.toNat ≤ 127 then 1 else 0) +
        3 * (if c.rot.toNat ≤ 1 then 1 else 0) + 1 + (if c.statusEn then 1 else 0) ∧
    2 ≤ (sessionProgram p c).length ∧ (sessionProgram p c).length ≤ 99 ∧ frames ≤ 50) ∧
  ∀ p : Params, (∃ c, (sessionProgram p c).length = 2) ∧ ∃ c, (sessionProgram p c).length = 99

/-- The windows of a session's program sum to the least duration of the session
(70_reset_and_hazards.md R321). -/
def Obligations.SessionWindowsSum : Prop :=
  ∀ (p : Params) (c : Intent),
    ((sessionProgram p c).map fun e => e.2.window).sum =
      (p.tCommitMs + p.tRebootMs) *
        (12 * (if c.sweep then 1 else 0) + (if c.reset then 1 else 0) +
          (if c.newid ≠ 0 then 1 else 0) + (if c.delay.toNat ≤ 127 then 1 else 0) +
          (if c.rot.toNat ≤ 1 then 1 else 0))

/-- The sweep's program: at each of the twelve rates in ascending order, the reopen, the baud write, the
commit and the reboot with their windows, every entry tagged `RecoverySweep` (43_sweep.md R221). -/
def Obligations.SweepProgramCycles : Prop :=
  ∀ (p : Params) (target : BaudIdx),
    sweepProgram p target = (List.finRange 12).flatMap (fun i => [
      (.recoverySweep, .uopen i),
      (.recoverySweep, .usend [0xFA, 0xAF, 0xFF, 0x00, 0x06, 0x01, 0x01, BitVec.ofNat 8 target.val,
        0xF9 ^^^ BitVec.ofNat 8 target.val]),
      (.recoverySweep, .usend [0xFA, 0xAF, 0xFF, 0x40, 0xFF, 0x00, 0x00, 0x40]),
      (.recoverySweep, .uwait p.tCommitMs),
      (.recoverySweep, .usend [0xFA, 0xAF, 0xFF, 0x20, 0xFF, 0x00, 0x00, 0x20]),
      (.recoverySweep, .uwait p.tRebootMs)]) ∧
    (sweepProgram p target).length = 72

/-- SWEEP is expanded in place before the first micro-operation of a session; a session with the sweep
flag is the session without it with SWEEP expanded. Elsewhere it stops by name. The expansion as an
instruction is the model's reading (43_sweep.md, 30_encoding.md R113; log 11). -/
def Obligations.SweepExpandsInPlace : Prop :=
  (∀ (s : State) (target : BaudIdx), s.phase = .session → s.upc = 0 → s.Between →
    exec (.sweep target) s = .next { s with prog := sweepProgram s.params target ++ s.prog }) ∧
  (∀ (s : State) (target : BaudIdx), ¬ (s.phase = .session ∧ s.upc = 0 ∧ s.Between) →
    exec (.sweep target) s = .fault .sweepOutsideSession) ∧
  ∀ (s t : State) (c : Intent), s.phase = .idle → s.Between → intentValid c = true →
    c.sweep = true → exec (.session { c with sweep := false }) s = .next t →
    ∃ t', exec (.sweep (baudIdxOf c.tbaud)) t = .next t' ∧
      exec (.session c) s = .next { t' with intent := c }

/-- In a session's program, the sweep's included, every commit frame is followed by the commit window,
the reboot frame and the reboot window, with nothing between them (42_commands.md R196). -/
def Obligations.CommitsAreAlwaysPersisted : Prop :=
  ∀ (p : Params) (c : Intent) (k : Nat) (tag : Seq) (id : Byte),
    (sessionProgram p c)[k]? = some (tag, .usend (commitFrame id)) →
    (sessionProgram p c)[k + 1]? = some (tag, .uwait p.tCommitMs) ∧
    (sessionProgram p c)[k + 2]? = some (tag, .usend (rebootFrame id)) ∧
    (sessionProgram p c)[k + 3]? = some (tag, .uwait p.tRebootMs)

/-- A running program whose remaining micro-operations read nothing from the line, given its `Drained`s,
runs to its end and leaves exactly the trace they list, whatever bytes the Transport holds (00_scope.md
R11, 43_sweep.md R222). The exact schedule is the model's: the list of moves and inputs (log 1), the two
moves of a `uWAIT` (log 6), `P_READY` in the move of the last completion (log 12). That a `uOPEN` leaves
the Transport's receive queue as it is is the model's choice (log 9). -/
def Obligations.StraightProgramTrace : Prop :=
  ∀ (s : State) (rest : List Input), s.busy = true → s.Between →
    s.remaining ≠ [] → (∀ u ∈ s.remaining, u.straight = true) →
    (s.opn = true ∨ ∃ i us, s.remaining = .uopen i :: us) →
    s.inbox = s.remaining.flatMap UOp.inputs ++ rest →
    ∃ t, Host.Core.run core (s.remaining.flatMap UOp.inputs).length s = .next t ∧
      t.trace = s.trace ++ straightTrace s.opn s.remaining ∧
      t.phase = .ready ∧ t.upc = s.prog.length ∧ t.prog = s.prog ∧ t.Between ∧ t.opn = true ∧
      t.inbox = rest ∧ t.rxFifo = s.rxFifo ∧ t.rxbuf = s.rxbuf ∧ t.rxres = s.rxres ∧
      t.intent = s.intent ∧ t.cmd = s.cmd ∧ t.params = s.params ∧ t.err = s.err ∧
      t.lasterr = s.lasterr ∧ t.st = s.st ∧ t.rd = s.rd

/-- An accepted command other than a read puts exactly its frame or frames on the wire, with its
windows, and ends in the ready phase (42_commands.md R182 to R195). The exact schedule is the model's
(log 1, log 6, log 12). The reads are in `ReadsAccepted`, `ReceiveBegins`, `ValidResponseAccepted` and
`ReadLatchSurfacesResponse`. -/
def Obligations.CommandsReachTheWire : Prop :=
  ∀ (s : State) (i : Instr) (events : List OutEvent) (rest : List Input) (ops : List UOp),
    s.phase = .ready → s.Between → s.opn = true → i.wf s.params = true →
    (match i with
      | .romcommit id => some [UOp.usend (commitFrame id), .uwait s.params.tCommitMs]
      | .reboot id => some [.usend (rebootFrame id), .uwait s.params.tRebootMs]
      | .persist id => some [.usend (commitFrame id), .uwait s.params.tCommitMs,
          .usend (rebootFrame id), .uwait s.params.tRebootMs]
      | .freset _ | .setid _ _ | .setrev _ _ | .setbaud _ _ | .setdelay _ _ | .torque _ _
      | .move _ _ _ | .write _ _ _ _ => (encode s.params i).map fun f => [.usend f]
      | _ => none) = some ops →
    events = ops.flatMap (fun u => match u with
      | .usend f => .dir .tx :: (f.map .tx ++ [.dir .rx])
      | .uwait ms => [.delay ms]
      | _ => []) →
    s.inbox = .cmd i :: (ops.flatMap UOp.inputs ++ rest) →
    ∃ t, Host.Core.run core (1 + (ops.flatMap UOp.inputs).length) s = .next t ∧
      t.trace = s.trace ++ events ∧ t.phase = .ready ∧ t.inbox = rest ∧ t.Between ∧
      t.rxFifo = s.rxFifo ∧ t.doneMask = s.doneMask ∧ t.err = s.err ∧ t.lasterr = s.lasterr ∧
      t.baud = s.baud ∧ t.curBaud = s.curBaud ∧ t.opn = true ∧ t.rd = s.rd

/-- A session without a status read, from its `Start` to `Done`: the trace its program lists, the
Transport open at `BAUD`, which is the target or, after a factory reset, index 7, the `DONE_MASK` bits of
the steps the intent asks for, whatever bytes the Transport holds (44_session.md R231, R237, R244, R245,
R247; 43_sweep.md R222). The exact schedule is the model's (log 1, log 6, log 12), and so is that a
`uOPEN` leaves the Transport's receive queue as it is (log 9). The parts of a session with a status read
are in `SessionProgramOrder`, `StepRunsMicroOperation` and `ReportSurfacesStatus`. -/
def Obligations.SessionRunsToDone : Prop :=
  ∀ (s : State) (c : Intent) (rest : List Input),
    s.phase = .idle → s.Between → s.opn = false → intentValid c = true → c.statusEn = false →
    s.inbox = .start c ::
      (((sessionProgram s.params c).map Prod.snd).flatMap UOp.inputs ++ rest) →
    ∃ t, Host.Core.run core
        (1 + (((sessionProgram s.params c).map Prod.snd).flatMap UOp.inputs).length) s = .next t ∧
      t.phase = .ready ∧ t.seq = .done ∧ t.busy = false ∧ t.inbox = rest ∧ t.rxFifo = s.rxFifo ∧
      t.trace = s.trace ++ straightTrace false ((sessionProgram s.params c).map Prod.snd) ∧
      t.intent = c ∧ t.opn = true ∧ t.curBaud = t.baud ∧ t.dir = .rx ∧ t.err = s.err ∧
      t.baud.val = (if c.reset then 7 else c.tbaud.toNat) ∧
      t.doneMask = s.doneMask ||| (if c.sweep then 0b0000001 else 0) |||
        (if c.reset then 0b0000010 else 0) ||| (if c.newid ≠ 0 then 0b0000100 else 0) |||
        (if c.delay.toNat ≤ 127 then 0b0001000 else 0) |||
        (if c.rot.toNat ≤ 1 then 0b0010000 else 0) ||| 0b0100000

/-! ### The whole machine -/

/-- `INTENT` is written only by an accepted `Start`, and is constant from then until `Reset`, whatever
else comes (10_state.md R22). -/
def Obligations.IntentConstantUntilReset : Prop :=
  ∀ s t : State, step s = .next t → t.intent ≠ s.intent →
    (∃ rest, s.inbox = .reset :: rest) ∨
    (s.phase = .idle ∧ ∃ c rest, s.inbox = .start c :: rest ∧ intentValid c = true ∧ t.intent = c)

/-- Nothing the line does, and no move of the framer, changes the program, the latched operands or the
parameters (20_memory.md R79, 44_session.md R245, 43_sweep.md R222). -/
def Obligations.LineNeverChangesProgram : Prop :=
  ∀ s t : State, step s = .next t →
    (s.inbox = [] ∨ ∃ e rest, s.inbox = e :: rest ∧
      (e = .tick ∨ e = .drained ∨ e = .rxTimeout ∨ ∃ b, e = .rx b)) →
    t.prog = s.prog ∧ t.intent = s.intent ∧ t.cmd = s.cmd ∧ t.params = s.params ∧
      (t.upc = s.upc ∨ t.upc = s.upc + 1)

/-- No step but `Reset` clears a flag of `ERR` or a bit of `DONE_MASK`, or takes an event back out of the
trace (10_state.md R39, 44_session.md R247). -/
def Obligations.FlagsAreSticky : Prop :=
  ∀ s t : State, step s = .next t → (∀ rest, s.inbox ≠ .reset :: rest) →
    t.err &&& s.err = s.err ∧ t.doneMask &&& s.doneMask = s.doneMask ∧
      ∃ new, t.trace = s.trace ++ new

/-- The phase transitions, each with its cause (10_state.md R27). -/
def Obligations.PhaseTransitions : Prop :=
  ∀ s t : State, step s = .next t → t.phase ≠ s.phase →
    (t.phase = .idle ∧ ∃ rest, s.inbox = .reset :: rest) ∨
    (s.phase = .idle ∧ t.phase = .session ∧
      ∃ c rest, s.inbox = .start c :: rest ∧ intentValid c = true) ∨
    (s.phase = .session ∧ t.phase = .ready ∧ t.upc = t.prog.length) ∨
    (s.phase = .ready ∧ t.phase = .cmd ∧
      ∃ e rest, s.inbox = e :: rest ∧ ((∃ i, e = .cmd i) ∨ ∃ bs, e = .frame bs)) ∨
    (s.phase = .cmd ∧ t.phase = .ready ∧ t.upc = t.prog.length)

/-- `SEQ` only ever increases, until `Reset` (10_state.md R26). -/
def Obligations.SeqOnlyIncreases : Prop :=
  ∀ s t : State, Inv s → step s = .next t → (∀ rest, s.inbox ≠ .reset :: rest) →
    s.seq.number ≤ t.seq.number

/-- `BUSY` is 1 exactly in `P_SESSION` and `P_CMD`, and is what the host reads as register 9
(10_state.md R28, R44). -/
def Obligations.BusyExactlyWhileRunning : Prop :=
  ∀ s : State, (s.busy = true ↔ s.phase = .session ∨ s.phase = .cmd) ∧
    hostRead 9 s = some [if s.phase = .session ∨ s.phase = .cmd then 1 else 0]

/-- `Reset`, in any state: every register with a reset value has it, the line is released, no event is
emitted (10_state.md R46, R47; 70_reset_and_hazards.md R300, R301). That the Transport's queue, the
parameters and the inputs to come stay as they are is log 19. -/
def Obligations.ResetFromAnyState : Prop :=
  ∀ (s : State) (rest : List Input), s.inbox = .reset :: rest →
    ∃ t, step s = .next t ∧
      t.phase = .idle ∧ t.prog = [] ∧ t.upc = 0 ∧ t.seq = .idle ∧ t.busy = false ∧ t.opn = false ∧
      t.baud.val = 7 ∧ t.dir = .rx ∧ t.lst = .idle ∧ t.txi = 0 ∧ t.txn = 0 ∧ t.rxi = 0 ∧ t.rxn = 0 ∧
      t.rxres = .none ∧ t.timer = none ∧ t.rxdl = .stopped ∧ t.err = 0b0000 ∧ t.lasterr = ⟨0, 0⟩ ∧
      t.doneMask = 0b0000000 ∧ t.st.valid = false ∧ t.rd.valid = false ∧
      t.trace = s.trace ∧ t.rxFifo = s.rxFifo ∧ t.params = s.params ∧ t.inbox = rest

/-- The reset state has every value 10_state.md R46 gives and satisfies the invariant. -/
def Obligations.ResetSatisfiesInv : Prop :=
  Inv State.reset ∧ State.reset.phase = .idle ∧ State.reset.seq = .idle ∧
    State.reset.busy = false ∧ State.reset.prog = [] ∧ State.reset.upc = 0 ∧
    State.reset.opn = false ∧ State.reset.baud = 7 ∧ State.reset.dir = .rx ∧
    State.reset.lst = .idle ∧ State.reset.txi = 0 ∧ State.reset.txn = 0 ∧ State.reset.rxi = 0 ∧
    State.reset.rxn = 0 ∧ State.reset.rxres = .none ∧ State.reset.timer = none ∧
    State.reset.rxdl = .stopped ∧ State.reset.err = 0 ∧ State.reset.lasterr = ⟨0, 0⟩ ∧
    State.reset.doneMask = 0 ∧ State.reset.st.valid = false ∧ State.reset.rd.valid = false

/-- Every step keeps the invariant: the direction line transmits exactly inside a `uSEND`, the program
counter and the link registers stay in their bounds, the Transport is open after the session's first
micro-operation, the packet buffers hold a value only in their windows, the error codes and the status
outputs agree with their flags, the parameters stay legal (41_link.md R153; 10_state.md R25, R27, R35,
R36, R37, R39, R45; 60_exceptions.md R261; 00_scope.md R6). -/
def Obligations.EveryStepKeepsInv : Prop :=
  ∀ s t : State, Inv s → step s = .next t → Inv t

/-- No step from a state of the invariant faults: every micro-operation begins with its precondition
true, and no error of the framer stops it (60_exceptions.md R262, 41_link.md R150, R151, R155). -/
def Obligations.StepNeverFaults : Prop :=
  ∀ (s : State) (r : Fault), Inv s → step s ≠ .fault r
end

