-- ==== Sys2Proof/Laws/State.lean ====
section
/-! SUPPORT. One lemma per field per update: what each update of the state leaves in each register, so
that no proof unfolds a record update. -/

namespace Sys2Proof.Machine

/-! ### emit -/

@[simp] theorem emit_phase (e : OutEvent) (s : State) :
    (emit e s).phase = s.phase := rfl
@[simp] theorem emit_prog (e : OutEvent) (s : State) :
    (emit e s).prog = s.prog := rfl
@[simp] theorem emit_upc (e : OutEvent) (s : State) :
    (emit e s).upc = s.upc := rfl
@[simp] theorem emit_intent (e : OutEvent) (s : State) :
    (emit e s).intent = s.intent := rfl
@[simp] theorem emit_cmd (e : OutEvent) (s : State) :
    (emit e s).cmd = s.cmd := rfl
@[simp] theorem emit_opn (e : OutEvent) (s : State) :
    (emit e s).opn = s.opn := rfl
@[simp] theorem emit_curBaud (e : OutEvent) (s : State) :
    (emit e s).curBaud = s.curBaud := rfl
@[simp] theorem emit_baud (e : OutEvent) (s : State) :
    (emit e s).baud = s.baud := rfl
@[simp] theorem emit_dir (e : OutEvent) (s : State) :
    (emit e s).dir = s.dir := rfl
@[simp] theorem emit_lst (e : OutEvent) (s : State) :
    (emit e s).lst = s.lst := rfl
@[simp] theorem emit_txi (e : OutEvent) (s : State) :
    (emit e s).txi = s.txi := rfl
@[simp] theorem emit_txn (e : OutEvent) (s : State) :
    (emit e s).txn = s.txn := rfl
@[simp] theorem emit_rxi (e : OutEvent) (s : State) :
    (emit e s).rxi = s.rxi := rfl
@[simp] theorem emit_rxn (e : OutEvent) (s : State) :
    (emit e s).rxn = s.rxn := rfl
@[simp] theorem emit_rxres (e : OutEvent) (s : State) :
    (emit e s).rxres = s.rxres := rfl
@[simp] theorem emit_txbuf (e : OutEvent) (s : State) :
    (emit e s).txbuf = s.txbuf := rfl
@[simp] theorem emit_rxbuf (e : OutEvent) (s : State) :
    (emit e s).rxbuf = s.rxbuf := rfl
@[simp] theorem emit_timer (e : OutEvent) (s : State) :
    (emit e s).timer = s.timer := rfl
@[simp] theorem emit_rxdl (e : OutEvent) (s : State) :
    (emit e s).rxdl = s.rxdl := rfl
@[simp] theorem emit_err (e : OutEvent) (s : State) :
    (emit e s).err = s.err := rfl
@[simp] theorem emit_lasterr (e : OutEvent) (s : State) :
    (emit e s).lasterr = s.lasterr := rfl
@[simp] theorem emit_doneMask (e : OutEvent) (s : State) :
    (emit e s).doneMask = s.doneMask := rfl
@[simp] theorem emit_st (e : OutEvent) (s : State) :
    (emit e s).st = s.st := rfl
@[simp] theorem emit_rd (e : OutEvent) (s : State) :
    (emit e s).rd = s.rd := rfl
@[simp] theorem emit_params (e : OutEvent) (s : State) :
    (emit e s).params = s.params := rfl
@[simp] theorem emit_codecOut (e : OutEvent) (s : State) :
    (emit e s).codecOut = s.codecOut := rfl
@[simp] theorem emit_rxFifo (e : OutEvent) (s : State) :
    (emit e s).rxFifo = s.rxFifo := rfl
@[simp] theorem emit_inbox (e : OutEvent) (s : State) :
    (emit e s).inbox = s.inbox := rfl
@[simp] theorem emit_trace (e : OutEvent) (s : State) :
    (emit e s).trace = s.trace ++ [e] := rfl
@[simp] theorem emit_freeCtr (e : OutEvent) (s : State) :
    (emit e s).freeCtr = s.freeCtr := rfl

/-! ### recordError -/

@[simp] theorem recordError_phase (k : ErrKind) (info : Byte) (e : OutEvent) (s : State) :
    (recordError k info e s).phase = s.phase := rfl
@[simp] theorem recordError_prog (k : ErrKind) (info : Byte) (e : OutEvent) (s : State) :
    (recordError k info e s).prog = s.prog := rfl
@[simp] theorem recordError_upc (k : ErrKind) (info : Byte) (e : OutEvent) (s : State) :
    (recordError k info e s).upc = s.upc := rfl
@[simp] theorem recordError_intent (k : ErrKind) (info : Byte) (e : OutEvent) (s : State) :
    (recordError k info e s).intent = s.intent := rfl
@[simp] theorem recordError_cmd (k : ErrKind) (info : Byte) (e : OutEvent) (s : State) :
    (recordError k info e s).cmd = s.cmd := rfl
@[simp] theorem recordError_opn (k : ErrKind) (info : Byte) (e : OutEvent) (s : State) :
    (recordError k info e s).opn = s.opn := rfl
@[simp] theorem recordError_curBaud (k : ErrKind) (info : Byte) (e : OutEvent) (s : State) :
    (recordError k info e s).curBaud = s.curBaud := rfl
@[simp] theorem recordError_baud (k : ErrKind) (info : Byte) (e : OutEvent) (s : State) :
    (recordError k info e s).baud = s.baud := rfl
@[simp] theorem recordError_dir (k : ErrKind) (info : Byte) (e : OutEvent) (s : State) :
    (recordError k info e s).dir = s.dir := rfl
@[simp] theorem recordError_lst (k : ErrKind) (info : Byte) (e : OutEvent) (s : State) :
    (recordError k info e s).lst = s.lst := rfl
@[simp] theorem recordError_txi (k : ErrKind) (info : Byte) (e : OutEvent) (s : State) :
    (recordError k info e s).txi = s.txi := rfl
@[simp] theorem recordError_txn (k : ErrKind) (info : Byte) (e : OutEvent) (s : State) :
    (recordError k info e s).txn = s.txn := rfl
@[simp] theorem recordError_rxi (k : ErrKind) (info : Byte) (e : OutEvent) (s : State) :
    (recordError k info e s).rxi = s.rxi := rfl
@[simp] theorem recordError_rxn (k : ErrKind) (info : Byte) (e : OutEvent) (s : State) :
    (recordError k info e s).rxn = s.rxn := rfl
@[simp] theorem recordError_rxres (k : ErrKind) (info : Byte) (e : OutEvent) (s : State) :
    (recordError k info e s).rxres = s.rxres := rfl
@[simp] theorem recordError_txbuf (k : ErrKind) (info : Byte) (e : OutEvent) (s : State) :
    (recordError k info e s).txbuf = s.txbuf := rfl
@[simp] theorem recordError_rxbuf (k : ErrKind) (info : Byte) (e : OutEvent) (s : State) :
    (recordError k info e s).rxbuf = s.rxbuf := rfl
@[simp] theorem recordError_timer (k : ErrKind) (info : Byte) (e : OutEvent) (s : State) :
    (recordError k info e s).timer = s.timer := rfl
@[simp] theorem recordError_rxdl (k : ErrKind) (info : Byte) (e : OutEvent) (s : State) :
    (recordError k info e s).rxdl = s.rxdl := rfl
@[simp] theorem recordError_err (k : ErrKind) (info : Byte) (e : OutEvent) (s : State) :
    (recordError k info e s).err = s.err ||| k.bit := rfl
@[simp] theorem recordError_lasterr (k : ErrKind) (info : Byte) (e : OutEvent) (s : State) :
    (recordError k info e s).lasterr = ⟨k.code, info⟩ := rfl
@[simp] theorem recordError_doneMask (k : ErrKind) (info : Byte) (e : OutEvent) (s : State) :
    (recordError k info e s).doneMask = s.doneMask := rfl
@[simp] theorem recordError_st (k : ErrKind) (info : Byte) (e : OutEvent) (s : State) :
    (recordError k info e s).st = s.st := rfl
@[simp] theorem recordError_rd (k : ErrKind) (info : Byte) (e : OutEvent) (s : State) :
    (recordError k info e s).rd = s.rd := rfl
@[simp] theorem recordError_params (k : ErrKind) (info : Byte) (e : OutEvent) (s : State) :
    (recordError k info e s).params = s.params := rfl
@[simp] theorem recordError_codecOut (k : ErrKind) (info : Byte) (e : OutEvent) (s : State) :
    (recordError k info e s).codecOut = s.codecOut := rfl
@[simp] theorem recordError_rxFifo (k : ErrKind) (info : Byte) (e : OutEvent) (s : State) :
    (recordError k info e s).rxFifo = s.rxFifo := rfl
@[simp] theorem recordError_inbox (k : ErrKind) (info : Byte) (e : OutEvent) (s : State) :
    (recordError k info e s).inbox = s.inbox := rfl
@[simp] theorem recordError_trace (k : ErrKind) (info : Byte) (e : OutEvent) (s : State) :
    (recordError k info e s).trace = s.trace ++ [e] := rfl
@[simp] theorem recordError_freeCtr (k : ErrKind) (info : Byte) (e : OutEvent) (s : State) :
    (recordError k info e s).freeCtr = s.freeCtr := rfl

/-! ### raiseError -/

@[simp] theorem raiseError_phase (k : ErrKind) (info : Byte) (s : State) :
    (raiseError k info s).phase = s.phase := rfl
@[simp] theorem raiseError_prog (k : ErrKind) (info : Byte) (s : State) :
    (raiseError k info s).prog = s.prog := rfl
@[simp] theorem raiseError_upc (k : ErrKind) (info : Byte) (s : State) :
    (raiseError k info s).upc = s.upc := rfl
@[simp] theorem raiseError_intent (k : ErrKind) (info : Byte) (s : State) :
    (raiseError k info s).intent = s.intent := rfl
@[simp] theorem raiseError_cmd (k : ErrKind) (info : Byte) (s : State) :
    (raiseError k info s).cmd = s.cmd := rfl
@[simp] theorem raiseError_opn (k : ErrKind) (info : Byte) (s : State) :
    (raiseError k info s).opn = s.opn := rfl
@[simp] theorem raiseError_curBaud (k : ErrKind) (info : Byte) (s : State) :
    (raiseError k info s).curBaud = s.curBaud := rfl
@[simp] theorem raiseError_baud (k : ErrKind) (info : Byte) (s : State) :
    (raiseError k info s).baud = s.baud := rfl
@[simp] theorem raiseError_dir (k : ErrKind) (info : Byte) (s : State) :
    (raiseError k info s).dir = s.dir := rfl
@[simp] theorem raiseError_lst (k : ErrKind) (info : Byte) (s : State) :
    (raiseError k info s).lst = s.lst := rfl
@[simp] theorem raiseError_txi (k : ErrKind) (info : Byte) (s : State) :
    (raiseError k info s).txi = s.txi := rfl
@[simp] theorem raiseError_txn (k : ErrKind) (info : Byte) (s : State) :
    (raiseError k info s).txn = s.txn := rfl
@[simp] theorem raiseError_rxi (k : ErrKind) (info : Byte) (s : State) :
    (raiseError k info s).rxi = s.rxi := rfl
@[simp] theorem raiseError_rxn (k : ErrKind) (info : Byte) (s : State) :
    (raiseError k info s).rxn = s.rxn := rfl
@[simp] theorem raiseError_rxres (k : ErrKind) (info : Byte) (s : State) :
    (raiseError k info s).rxres = s.rxres := rfl
@[simp] theorem raiseError_txbuf (k : ErrKind) (info : Byte) (s : State) :
    (raiseError k info s).txbuf = s.txbuf := rfl
@[simp] theorem raiseError_rxbuf (k : ErrKind) (info : Byte) (s : State) :
    (raiseError k info s).rxbuf = s.rxbuf := rfl
@[simp] theorem raiseError_timer (k : ErrKind) (info : Byte) (s : State) :
    (raiseError k info s).timer = s.timer := rfl
@[simp] theorem raiseError_rxdl (k : ErrKind) (info : Byte) (s : State) :
    (raiseError k info s).rxdl = s.rxdl := rfl
@[simp] theorem raiseError_err (k : ErrKind) (info : Byte) (s : State) :
    (raiseError k info s).err = s.err ||| k.bit := rfl
@[simp] theorem raiseError_lasterr (k : ErrKind) (info : Byte) (s : State) :
    (raiseError k info s).lasterr = ⟨k.code, info⟩ := rfl
@[simp] theorem raiseError_doneMask (k : ErrKind) (info : Byte) (s : State) :
    (raiseError k info s).doneMask = s.doneMask := rfl
@[simp] theorem raiseError_st (k : ErrKind) (info : Byte) (s : State) :
    (raiseError k info s).st = s.st := rfl
@[simp] theorem raiseError_rd (k : ErrKind) (info : Byte) (s : State) :
    (raiseError k info s).rd = s.rd := rfl
@[simp] theorem raiseError_params (k : ErrKind) (info : Byte) (s : State) :
    (raiseError k info s).params = s.params := rfl
@[simp] theorem raiseError_codecOut (k : ErrKind) (info : Byte) (s : State) :
    (raiseError k info s).codecOut = s.codecOut := rfl
@[simp] theorem raiseError_rxFifo (k : ErrKind) (info : Byte) (s : State) :
    (raiseError k info s).rxFifo = s.rxFifo := rfl
@[simp] theorem raiseError_inbox (k : ErrKind) (info : Byte) (s : State) :
    (raiseError k info s).inbox = s.inbox := rfl
@[simp] theorem raiseError_trace (k : ErrKind) (info : Byte) (s : State) :
    (raiseError k info s).trace = s.trace ++ [.err k.code info] := rfl
@[simp] theorem raiseError_freeCtr (k : ErrKind) (info : Byte) (s : State) :
    (raiseError k info s).freeCtr = s.freeCtr := rfl

/-! ### refuseCall -/

@[simp] theorem refuseCall_phase (k : ErrKind) (info : Byte) (s : State) :
    (refuseCall k info s).phase = s.phase := rfl
@[simp] theorem refuseCall_prog (k : ErrKind) (info : Byte) (s : State) :
    (refuseCall k info s).prog = s.prog := rfl
@[simp] theorem refuseCall_upc (k : ErrKind) (info : Byte) (s : State) :
    (refuseCall k info s).upc = s.upc := rfl
@[simp] theorem refuseCall_intent (k : ErrKind) (info : Byte) (s : State) :
    (refuseCall k info s).intent = s.intent := rfl
@[simp] theorem refuseCall_cmd (k : ErrKind) (info : Byte) (s : State) :
    (refuseCall k info s).cmd = s.cmd := rfl
@[simp] theorem refuseCall_opn (k : ErrKind) (info : Byte) (s : State) :
    (refuseCall k info s).opn = s.opn := rfl
@[simp] theorem refuseCall_curBaud (k : ErrKind) (info : Byte) (s : State) :
    (refuseCall k info s).curBaud = s.curBaud := rfl
@[simp] theorem refuseCall_baud (k : ErrKind) (info : Byte) (s : State) :
    (refuseCall k info s).baud = s.baud := rfl
@[simp] theorem refuseCall_dir (k : ErrKind) (info : Byte) (s : State) :
    (refuseCall k info s).dir = s.dir := rfl
@[simp] theorem refuseCall_lst (k : ErrKind) (info : Byte) (s : State) :
    (refuseCall k info s).lst = s.lst := rfl
@[simp] theorem refuseCall_txi (k : ErrKind) (info : Byte) (s : State) :
    (refuseCall k info s).txi = s.txi := rfl
@[simp] theorem refuseCall_txn (k : ErrKind) (info : Byte) (s : State) :
    (refuseCall k info s).txn = s.txn := rfl
@[simp] theorem refuseCall_rxi (k : ErrKind) (info : Byte) (s : State) :
    (refuseCall k info s).rxi = s.rxi := rfl
@[simp] theorem refuseCall_rxn (k : ErrKind) (info : Byte) (s : State) :
    (refuseCall k info s).rxn = s.rxn := rfl
@[simp] theorem refuseCall_rxres (k : ErrKind) (info : Byte) (s : State) :
    (refuseCall k info s).rxres = s.rxres := rfl
@[simp] theorem refuseCall_txbuf (k : ErrKind) (info : Byte) (s : State) :
    (refuseCall k info s).txbuf = s.txbuf := rfl
@[simp] theorem refuseCall_rxbuf (k : ErrKind) (info : Byte) (s : State) :
    (refuseCall k info s).rxbuf = s.rxbuf := rfl
@[simp] theorem refuseCall_timer (k : ErrKind) (info : Byte) (s : State) :
    (refuseCall k info s).timer = s.timer := rfl
@[simp] theorem refuseCall_rxdl (k : ErrKind) (info : Byte) (s : State) :
    (refuseCall k info s).rxdl = s.rxdl := rfl
@[simp] theorem refuseCall_err (k : ErrKind) (info : Byte) (s : State) :
    (refuseCall k info s).err = s.err ||| k.bit := rfl
@[simp] theorem refuseCall_lasterr (k : ErrKind) (info : Byte) (s : State) :
    (refuseCall k info s).lasterr = ⟨k.code, info⟩ := rfl
@[simp] theorem refuseCall_doneMask (k : ErrKind) (info : Byte) (s : State) :
    (refuseCall k info s).doneMask = s.doneMask := rfl
@[simp] theorem refuseCall_st (k : ErrKind) (info : Byte) (s : State) :
    (refuseCall k info s).st = s.st := rfl
@[simp] theorem refuseCall_rd (k : ErrKind) (info : Byte) (s : State) :
    (refuseCall k info s).rd = s.rd := rfl
@[simp] theorem refuseCall_params (k : ErrKind) (info : Byte) (s : State) :
    (refuseCall k info s).params = s.params := rfl
@[simp] theorem refuseCall_codecOut (k : ErrKind) (info : Byte) (s : State) :
    (refuseCall k info s).codecOut = s.codecOut := rfl
@[simp] theorem refuseCall_rxFifo (k : ErrKind) (info : Byte) (s : State) :
    (refuseCall k info s).rxFifo = s.rxFifo := rfl
@[simp] theorem refuseCall_inbox (k : ErrKind) (info : Byte) (s : State) :
    (refuseCall k info s).inbox = s.inbox := rfl
@[simp] theorem refuseCall_trace (k : ErrKind) (info : Byte) (s : State) :
    (refuseCall k info s).trace = s.trace ++ [.refuse k.code] := rfl
@[simp] theorem refuseCall_freeCtr (k : ErrKind) (info : Byte) (s : State) :
    (refuseCall k info s).freeCtr = s.freeCtr := rfl

/-! ### loadProgram -/

@[simp] theorem loadProgram_phase (p : List (Seq × UOp)) (ph : Phase) (s : State) :
    (loadProgram p ph s).phase = ph := rfl
@[simp] theorem loadProgram_prog (p : List (Seq × UOp)) (ph : Phase) (s : State) :
    (loadProgram p ph s).prog = p := rfl
@[simp] theorem loadProgram_upc (p : List (Seq × UOp)) (ph : Phase) (s : State) :
    (loadProgram p ph s).upc = 0 := rfl
@[simp] theorem loadProgram_intent (p : List (Seq × UOp)) (ph : Phase) (s : State) :
    (loadProgram p ph s).intent = s.intent := rfl
@[simp] theorem loadProgram_cmd (p : List (Seq × UOp)) (ph : Phase) (s : State) :
    (loadProgram p ph s).cmd = s.cmd := rfl
@[simp] theorem loadProgram_opn (p : List (Seq × UOp)) (ph : Phase) (s : State) :
    (loadProgram p ph s).opn = s.opn := rfl
@[simp] theorem loadProgram_curBaud (p : List (Seq × UOp)) (ph : Phase) (s : State) :
    (loadProgram p ph s).curBaud = s.curBaud := rfl
@[simp] theorem loadProgram_baud (p : List (Seq × UOp)) (ph : Phase) (s : State) :
    (loadProgram p ph s).baud = s.baud := rfl
@[simp] theorem loadProgram_dir (p : List (Seq × UOp)) (ph : Phase) (s : State) :
    (loadProgram p ph s).dir = s.dir := rfl
@[simp] theorem loadProgram_lst (p : List (Seq × UOp)) (ph : Phase) (s : State) :
    (loadProgram p ph s).lst = s.lst := rfl
@[simp] theorem loadProgram_txi (p : List (Seq × UOp)) (ph : Phase) (s : State) :
    (loadProgram p ph s).txi = s.txi := rfl
@[simp] theorem loadProgram_txn (p : List (Seq × UOp)) (ph : Phase) (s : State) :
    (loadProgram p ph s).txn = s.txn := rfl
@[simp] theorem loadProgram_rxi (p : List (Seq × UOp)) (ph : Phase) (s : State) :
    (loadProgram p ph s).rxi = s.rxi := rfl
@[simp] theorem loadProgram_rxn (p : List (Seq × UOp)) (ph : Phase) (s : State) :
    (loadProgram p ph s).rxn = s.rxn := rfl
@[simp] theorem loadProgram_rxres (p : List (Seq × UOp)) (ph : Phase) (s : State) :
    (loadProgram p ph s).rxres = .none := rfl
@[simp] theorem loadProgram_txbuf (p : List (Seq × UOp)) (ph : Phase) (s : State) :
    (loadProgram p ph s).txbuf = s.txbuf := rfl
@[simp] theorem loadProgram_rxbuf (p : List (Seq × UOp)) (ph : Phase) (s : State) :
    (loadProgram p ph s).rxbuf = s.rxbuf := rfl
@[simp] theorem loadProgram_timer (p : List (Seq × UOp)) (ph : Phase) (s : State) :
    (loadProgram p ph s).timer = s.timer := rfl
@[simp] theorem loadProgram_rxdl (p : List (Seq × UOp)) (ph : Phase) (s : State) :
    (loadProgram p ph s).rxdl = s.rxdl := rfl
@[simp] theorem loadProgram_err (p : List (Seq × UOp)) (ph : Phase) (s : State) :
    (loadProgram p ph s).err = s.err := rfl
@[simp] theorem loadProgram_lasterr (p : List (Seq × UOp)) (ph : Phase) (s : State) :
    (loadProgram p ph s).lasterr = s.lasterr := rfl
@[simp] theorem loadProgram_doneMask (p : List (Seq × UOp)) (ph : Phase) (s : State) :
    (loadProgram p ph s).doneMask = s.doneMask := rfl
@[simp] theorem loadProgram_st (p : List (Seq × UOp)) (ph : Phase) (s : State) :
    (loadProgram p ph s).st = s.st := rfl
@[simp] theorem loadProgram_rd (p : List (Seq × UOp)) (ph : Phase) (s : State) :
    (loadProgram p ph s).rd = s.rd := rfl
@[simp] theorem loadProgram_params (p : List (Seq × UOp)) (ph : Phase) (s : State) :
    (loadProgram p ph s).params = s.params := rfl
@[simp] theorem loadProgram_codecOut (p : List (Seq × UOp)) (ph : Phase) (s : State) :
    (loadProgram p ph s).codecOut = s.codecOut := rfl
@[simp] theorem loadProgram_rxFifo (p : List (Seq × UOp)) (ph : Phase) (s : State) :
    (loadProgram p ph s).rxFifo = s.rxFifo := rfl
@[simp] theorem loadProgram_inbox (p : List (Seq × UOp)) (ph : Phase) (s : State) :
    (loadProgram p ph s).inbox = s.inbox := rfl
@[simp] theorem loadProgram_trace (p : List (Seq × UOp)) (ph : Phase) (s : State) :
    (loadProgram p ph s).trace = s.trace := rfl
@[simp] theorem loadProgram_freeCtr (p : List (Seq × UOp)) (ph : Phase) (s : State) :
    (loadProgram p ph s).freeCtr = s.freeCtr := rfl

/-! ### acceptCmd -/

@[simp] theorem acceptCmd_phase (c : CmdCall) (s : State) :
    (acceptCmd c s).phase = .cmd := rfl
@[simp] theorem acceptCmd_prog (c : CmdCall) (s : State) :
    (acceptCmd c s).prog = c.prog.map (Seq.done, ·) := rfl
@[simp] theorem acceptCmd_upc (c : CmdCall) (s : State) :
    (acceptCmd c s).upc = 0 := rfl
@[simp] theorem acceptCmd_intent (c : CmdCall) (s : State) :
    (acceptCmd c s).intent = s.intent := rfl
@[simp] theorem acceptCmd_cmd (c : CmdCall) (s : State) :
    (acceptCmd c s).cmd = latchCmd c s := rfl
@[simp] theorem acceptCmd_opn (c : CmdCall) (s : State) :
    (acceptCmd c s).opn = s.opn := rfl
@[simp] theorem acceptCmd_curBaud (c : CmdCall) (s : State) :
    (acceptCmd c s).curBaud = s.curBaud := rfl
@[simp] theorem acceptCmd_baud (c : CmdCall) (s : State) :
    (acceptCmd c s).baud = s.baud := rfl
@[simp] theorem acceptCmd_dir (c : CmdCall) (s : State) :
    (acceptCmd c s).dir = s.dir := rfl
@[simp] theorem acceptCmd_lst (c : CmdCall) (s : State) :
    (acceptCmd c s).lst = s.lst := rfl
@[simp] theorem acceptCmd_txi (c : CmdCall) (s : State) :
    (acceptCmd c s).txi = s.txi := rfl
@[simp] theorem acceptCmd_txn (c : CmdCall) (s : State) :
    (acceptCmd c s).txn = s.txn := rfl
@[simp] theorem acceptCmd_rxi (c : CmdCall) (s : State) :
    (acceptCmd c s).rxi = s.rxi := rfl
@[simp] theorem acceptCmd_rxn (c : CmdCall) (s : State) :
    (acceptCmd c s).rxn = s.rxn := rfl
@[simp] theorem acceptCmd_rxres (c : CmdCall) (s : State) :
    (acceptCmd c s).rxres = .none := rfl
@[simp] theorem acceptCmd_txbuf (c : CmdCall) (s : State) :
    (acceptCmd c s).txbuf = s.txbuf := rfl
@[simp] theorem acceptCmd_rxbuf (c : CmdCall) (s : State) :
    (acceptCmd c s).rxbuf = s.rxbuf := rfl
@[simp] theorem acceptCmd_timer (c : CmdCall) (s : State) :
    (acceptCmd c s).timer = s.timer := rfl
@[simp] theorem acceptCmd_rxdl (c : CmdCall) (s : State) :
    (acceptCmd c s).rxdl = s.rxdl := rfl
@[simp] theorem acceptCmd_err (c : CmdCall) (s : State) :
    (acceptCmd c s).err = s.err := rfl
@[simp] theorem acceptCmd_lasterr (c : CmdCall) (s : State) :
    (acceptCmd c s).lasterr = s.lasterr := rfl
@[simp] theorem acceptCmd_doneMask (c : CmdCall) (s : State) :
    (acceptCmd c s).doneMask = s.doneMask := rfl
@[simp] theorem acceptCmd_st (c : CmdCall) (s : State) :
    (acceptCmd c s).st = s.st := rfl
@[simp] theorem acceptCmd_rd (c : CmdCall) (s : State) :
    (acceptCmd c s).rd = if c.op.isRead then clearedRd s else s.rd := rfl
@[simp] theorem acceptCmd_params (c : CmdCall) (s : State) :
    (acceptCmd c s).params = s.params := rfl
@[simp] theorem acceptCmd_codecOut (c : CmdCall) (s : State) :
    (acceptCmd c s).codecOut = s.codecOut := rfl
@[simp] theorem acceptCmd_rxFifo (c : CmdCall) (s : State) :
    (acceptCmd c s).rxFifo = s.rxFifo := rfl
@[simp] theorem acceptCmd_inbox (c : CmdCall) (s : State) :
    (acceptCmd c s).inbox = s.inbox := rfl
@[simp] theorem acceptCmd_trace (c : CmdCall) (s : State) :
    (acceptCmd c s).trace = s.trace := rfl
@[simp] theorem acceptCmd_freeCtr (c : CmdCall) (s : State) :
    (acceptCmd c s).freeCtr = s.freeCtr + 1 := rfl

/-! ### acceptStart -/

@[simp] theorem acceptStart_phase (c : Intent) (s : State) :
    (acceptStart c s).phase = .session := rfl
@[simp] theorem acceptStart_prog (c : Intent) (s : State) :
    (acceptStart c s).prog = sessionProgram s.params c := rfl
@[simp] theorem acceptStart_upc (c : Intent) (s : State) :
    (acceptStart c s).upc = 0 := rfl
@[simp] theorem acceptStart_intent (c : Intent) (s : State) :
    (acceptStart c s).intent = c := rfl
@[simp] theorem acceptStart_cmd (c : Intent) (s : State) :
    (acceptStart c s).cmd = s.cmd := rfl
@[simp] theorem acceptStart_opn (c : Intent) (s : State) :
    (acceptStart c s).opn = s.opn := rfl
@[simp] theorem acceptStart_curBaud (c : Intent) (s : State) :
    (acceptStart c s).curBaud = s.curBaud := rfl
@[simp] theorem acceptStart_baud (c : Intent) (s : State) :
    (acceptStart c s).baud = baudIdxOf c.tbaud := rfl
@[simp] theorem acceptStart_dir (c : Intent) (s : State) :
    (acceptStart c s).dir = s.dir := rfl
@[simp] theorem acceptStart_lst (c : Intent) (s : State) :
    (acceptStart c s).lst = s.lst := rfl
@[simp] theorem acceptStart_txi (c : Intent) (s : State) :
    (acceptStart c s).txi = s.txi := rfl
@[simp] theorem acceptStart_txn (c : Intent) (s : State) :
    (acceptStart c s).txn = s.txn := rfl
@[simp] theorem acceptStart_rxi (c : Intent) (s : State) :
    (acceptStart c s).rxi = s.rxi := rfl
@[simp] theorem acceptStart_rxn (c : Intent) (s : State) :
    (acceptStart c s).rxn = s.rxn := rfl
@[simp] theorem acceptStart_rxres (c : Intent) (s : State) :
    (acceptStart c s).rxres = .none := rfl
@[simp] theorem acceptStart_txbuf (c : Intent) (s : State) :
    (acceptStart c s).txbuf = s.txbuf := rfl
@[simp] theorem acceptStart_rxbuf (c : Intent) (s : State) :
    (acceptStart c s).rxbuf = s.rxbuf := rfl
@[simp] theorem acceptStart_timer (c : Intent) (s : State) :
    (acceptStart c s).timer = s.timer := rfl
@[simp] theorem acceptStart_rxdl (c : Intent) (s : State) :
    (acceptStart c s).rxdl = s.rxdl := rfl
@[simp] theorem acceptStart_err (c : Intent) (s : State) :
    (acceptStart c s).err = s.err := rfl
@[simp] theorem acceptStart_lasterr (c : Intent) (s : State) :
    (acceptStart c s).lasterr = s.lasterr := rfl
@[simp] theorem acceptStart_doneMask (c : Intent) (s : State) :
    (acceptStart c s).doneMask = s.doneMask := rfl
@[simp] theorem acceptStart_st (c : Intent) (s : State) :
    (acceptStart c s).st = s.st := rfl
@[simp] theorem acceptStart_rd (c : Intent) (s : State) :
    (acceptStart c s).rd = s.rd := rfl
@[simp] theorem acceptStart_params (c : Intent) (s : State) :
    (acceptStart c s).params = s.params := rfl
@[simp] theorem acceptStart_codecOut (c : Intent) (s : State) :
    (acceptStart c s).codecOut = s.codecOut := rfl
@[simp] theorem acceptStart_rxFifo (c : Intent) (s : State) :
    (acceptStart c s).rxFifo = s.rxFifo := rfl
@[simp] theorem acceptStart_inbox (c : Intent) (s : State) :
    (acceptStart c s).inbox = s.inbox := rfl
@[simp] theorem acceptStart_trace (c : Intent) (s : State) :
    (acceptStart c s).trace = s.trace := rfl
@[simp] theorem acceptStart_freeCtr (c : Intent) (s : State) :
    (acceptStart c s).freeCtr = s.freeCtr := rfl

/-! ### dropTxbuf -/

@[simp] theorem dropTxbuf_phase (s : State) :
    (dropTxbuf s).phase = s.phase := rfl
@[simp] theorem dropTxbuf_prog (s : State) :
    (dropTxbuf s).prog = s.prog := rfl
@[simp] theorem dropTxbuf_upc (s : State) :
    (dropTxbuf s).upc = s.upc := rfl
@[simp] theorem dropTxbuf_intent (s : State) :
    (dropTxbuf s).intent = s.intent := rfl
@[simp] theorem dropTxbuf_cmd (s : State) :
    (dropTxbuf s).cmd = s.cmd := rfl
@[simp] theorem dropTxbuf_opn (s : State) :
    (dropTxbuf s).opn = s.opn := rfl
@[simp] theorem dropTxbuf_curBaud (s : State) :
    (dropTxbuf s).curBaud = s.curBaud := rfl
@[simp] theorem dropTxbuf_baud (s : State) :
    (dropTxbuf s).baud = s.baud := rfl
@[simp] theorem dropTxbuf_dir (s : State) :
    (dropTxbuf s).dir = s.dir := rfl
@[simp] theorem dropTxbuf_lst (s : State) :
    (dropTxbuf s).lst = s.lst := rfl
@[simp] theorem dropTxbuf_txi (s : State) :
    (dropTxbuf s).txi = s.txi := rfl
@[simp] theorem dropTxbuf_txn (s : State) :
    (dropTxbuf s).txn = s.txn := rfl
@[simp] theorem dropTxbuf_rxi (s : State) :
    (dropTxbuf s).rxi = s.rxi := rfl
@[simp] theorem dropTxbuf_rxn (s : State) :
    (dropTxbuf s).rxn = s.rxn := rfl
@[simp] theorem dropTxbuf_rxres (s : State) :
    (dropTxbuf s).rxres = s.rxres := rfl
@[simp] theorem dropTxbuf_txbuf (s : State) :
    (dropTxbuf s).txbuf = [] := rfl
@[simp] theorem dropTxbuf_rxbuf (s : State) :
    (dropTxbuf s).rxbuf = s.rxbuf := rfl
@[simp] theorem dropTxbuf_timer (s : State) :
    (dropTxbuf s).timer = s.timer := rfl
@[simp] theorem dropTxbuf_rxdl (s : State) :
    (dropTxbuf s).rxdl = s.rxdl := rfl
@[simp] theorem dropTxbuf_err (s : State) :
    (dropTxbuf s).err = s.err := rfl
@[simp] theorem dropTxbuf_lasterr (s : State) :
    (dropTxbuf s).lasterr = s.lasterr := rfl
@[simp] theorem dropTxbuf_doneMask (s : State) :
    (dropTxbuf s).doneMask = s.doneMask := rfl
@[simp] theorem dropTxbuf_st (s : State) :
    (dropTxbuf s).st = s.st := rfl
@[simp] theorem dropTxbuf_rd (s : State) :
    (dropTxbuf s).rd = s.rd := rfl
@[simp] theorem dropTxbuf_params (s : State) :
    (dropTxbuf s).params = s.params := rfl
@[simp] theorem dropTxbuf_codecOut (s : State) :
    (dropTxbuf s).codecOut = s.codecOut := rfl
@[simp] theorem dropTxbuf_rxFifo (s : State) :
    (dropTxbuf s).rxFifo = s.rxFifo := rfl
@[simp] theorem dropTxbuf_inbox (s : State) :
    (dropTxbuf s).inbox = s.inbox := rfl
@[simp] theorem dropTxbuf_trace (s : State) :
    (dropTxbuf s).trace = s.trace := rfl
@[simp] theorem dropTxbuf_freeCtr (s : State) :
    (dropTxbuf s).freeCtr = s.freeCtr + 1 := rfl

/-! ### dropRxbuf -/

@[simp] theorem dropRxbuf_phase (s : State) :
    (dropRxbuf s).phase = s.phase := rfl
@[simp] theorem dropRxbuf_prog (s : State) :
    (dropRxbuf s).prog = s.prog := rfl
@[simp] theorem dropRxbuf_upc (s : State) :
    (dropRxbuf s).upc = s.upc := rfl
@[simp] theorem dropRxbuf_intent (s : State) :
    (dropRxbuf s).intent = s.intent := rfl
@[simp] theorem dropRxbuf_cmd (s : State) :
    (dropRxbuf s).cmd = s.cmd := rfl
@[simp] theorem dropRxbuf_opn (s : State) :
    (dropRxbuf s).opn = s.opn := rfl
@[simp] theorem dropRxbuf_curBaud (s : State) :
    (dropRxbuf s).curBaud = s.curBaud := rfl
@[simp] theorem dropRxbuf_baud (s : State) :
    (dropRxbuf s).baud = s.baud := rfl
@[simp] theorem dropRxbuf_dir (s : State) :
    (dropRxbuf s).dir = s.dir := rfl
@[simp] theorem dropRxbuf_lst (s : State) :
    (dropRxbuf s).lst = s.lst := rfl
@[simp] theorem dropRxbuf_txi (s : State) :
    (dropRxbuf s).txi = s.txi := rfl
@[simp] theorem dropRxbuf_txn (s : State) :
    (dropRxbuf s).txn = s.txn := rfl
@[simp] theorem dropRxbuf_rxi (s : State) :
    (dropRxbuf s).rxi = s.rxi := rfl
@[simp] theorem dropRxbuf_rxn (s : State) :
    (dropRxbuf s).rxn = s.rxn := rfl
@[simp] theorem dropRxbuf_rxres (s : State) :
    (dropRxbuf s).rxres = s.rxres := rfl
@[simp] theorem dropRxbuf_txbuf (s : State) :
    (dropRxbuf s).txbuf = s.txbuf := rfl
@[simp] theorem dropRxbuf_rxbuf (s : State) :
    (dropRxbuf s).rxbuf = [] := rfl
@[simp] theorem dropRxbuf_timer (s : State) :
    (dropRxbuf s).timer = s.timer := rfl
@[simp] theorem dropRxbuf_rxdl (s : State) :
    (dropRxbuf s).rxdl = s.rxdl := rfl
@[simp] theorem dropRxbuf_err (s : State) :
    (dropRxbuf s).err = s.err := rfl
@[simp] theorem dropRxbuf_lasterr (s : State) :
    (dropRxbuf s).lasterr = s.lasterr := rfl
@[simp] theorem dropRxbuf_doneMask (s : State) :
    (dropRxbuf s).doneMask = s.doneMask := rfl
@[simp] theorem dropRxbuf_st (s : State) :
    (dropRxbuf s).st = s.st := rfl
@[simp] theorem dropRxbuf_rd (s : State) :
    (dropRxbuf s).rd = s.rd := rfl
@[simp] theorem dropRxbuf_params (s : State) :
    (dropRxbuf s).params = s.params := rfl
@[simp] theorem dropRxbuf_codecOut (s : State) :
    (dropRxbuf s).codecOut = s.codecOut := rfl
@[simp] theorem dropRxbuf_rxFifo (s : State) :
    (dropRxbuf s).rxFifo = s.rxFifo := rfl
@[simp] theorem dropRxbuf_inbox (s : State) :
    (dropRxbuf s).inbox = s.inbox := rfl
@[simp] theorem dropRxbuf_trace (s : State) :
    (dropRxbuf s).trace = s.trace := rfl
@[simp] theorem dropRxbuf_freeCtr (s : State) :
    (dropRxbuf s).freeCtr = s.freeCtr + 1 := rfl

/-! ### openTransport -/

@[simp] theorem openTransport_phase (i : BaudIdx) (s : State) :
    (openTransport i s).phase = s.phase := by
  unfold openTransport; cases s.opn <;> simp [emit]
@[simp] theorem openTransport_prog (i : BaudIdx) (s : State) :
    (openTransport i s).prog = s.prog := by
  unfold openTransport; cases s.opn <;> simp [emit]
@[simp] theorem openTransport_upc (i : BaudIdx) (s : State) :
    (openTransport i s).upc = s.upc := by
  unfold openTransport; cases s.opn <;> simp [emit]
@[simp] theorem openTransport_intent (i : BaudIdx) (s : State) :
    (openTransport i s).intent = s.intent := by
  unfold openTransport; cases s.opn <;> simp [emit]
@[simp] theorem openTransport_cmd (i : BaudIdx) (s : State) :
    (openTransport i s).cmd = s.cmd := by
  unfold openTransport; cases s.opn <;> simp [emit]
@[simp] theorem openTransport_opn (i : BaudIdx) (s : State) :
    (openTransport i s).opn = true := by
  unfold openTransport; cases s.opn <;> simp
@[simp] theorem openTransport_curBaud (i : BaudIdx) (s : State) :
    (openTransport i s).curBaud = i := by
  unfold openTransport; cases s.opn <;> simp
@[simp] theorem openTransport_baud (i : BaudIdx) (s : State) :
    (openTransport i s).baud = s.baud := by
  unfold openTransport; cases s.opn <;> simp [emit]
@[simp] theorem openTransport_dir (i : BaudIdx) (s : State) :
    (openTransport i s).dir = s.dir := by
  unfold openTransport; cases s.opn <;> simp [emit]
@[simp] theorem openTransport_lst (i : BaudIdx) (s : State) :
    (openTransport i s).lst = s.lst := by
  unfold openTransport; cases s.opn <;> simp [emit]
@[simp] theorem openTransport_txi (i : BaudIdx) (s : State) :
    (openTransport i s).txi = s.txi := by
  unfold openTransport; cases s.opn <;> simp [emit]
@[simp] theorem openTransport_txn (i : BaudIdx) (s : State) :
    (openTransport i s).txn = s.txn := by
  unfold openTransport; cases s.opn <;> simp [emit]
@[simp] theorem openTransport_rxi (i : BaudIdx) (s : State) :
    (openTransport i s).rxi = s.rxi := by
  unfold openTransport; cases s.opn <;> simp [emit]
@[simp] theorem openTransport_rxn (i : BaudIdx) (s : State) :
    (openTransport i s).rxn = s.rxn := by
  unfold openTransport; cases s.opn <;> simp [emit]
@[simp] theorem openTransport_rxres (i : BaudIdx) (s : State) :
    (openTransport i s).rxres = s.rxres := by
  unfold openTransport; cases s.opn <;> simp [emit]
@[simp] theorem openTransport_txbuf (i : BaudIdx) (s : State) :
    (openTransport i s).txbuf = s.txbuf := by
  unfold openTransport; cases s.opn <;> simp [emit]
@[simp] theorem openTransport_rxbuf (i : BaudIdx) (s : State) :
    (openTransport i s).rxbuf = s.rxbuf := by
  unfold openTransport; cases s.opn <;> simp [emit]
@[simp] theorem openTransport_timer (i : BaudIdx) (s : State) :
    (openTransport i s).timer = s.timer := by
  unfold openTransport; cases s.opn <;> simp [emit]
@[simp] theorem openTransport_rxdl (i : BaudIdx) (s : State) :
    (openTransport i s).rxdl = s.rxdl := by
  unfold openTransport; cases s.opn <;> simp [emit]
@[simp] theorem openTransport_err (i : BaudIdx) (s : State) :
    (openTransport i s).err = s.err := by
  unfold openTransport; cases s.opn <;> simp [emit]
@[simp] theorem openTransport_lasterr (i : BaudIdx) (s : State) :
    (openTransport i s).lasterr = s.lasterr := by
  unfold openTransport; cases s.opn <;> simp [emit]
@[simp] theorem openTransport_doneMask (i : BaudIdx) (s : State) :
    (openTransport i s).doneMask = s.doneMask := by
  unfold openTransport; cases s.opn <;> simp [emit]
@[simp] theorem openTransport_st (i : BaudIdx) (s : State) :
    (openTransport i s).st = s.st := by
  unfold openTransport; cases s.opn <;> simp [emit]
@[simp] theorem openTransport_rd (i : BaudIdx) (s : State) :
    (openTransport i s).rd = s.rd := by
  unfold openTransport; cases s.opn <;> simp [emit]
@[simp] theorem openTransport_params (i : BaudIdx) (s : State) :
    (openTransport i s).params = s.params := by
  unfold openTransport; cases s.opn <;> simp [emit]
@[simp] theorem openTransport_codecOut (i : BaudIdx) (s : State) :
    (openTransport i s).codecOut = s.codecOut := by
  unfold openTransport; cases s.opn <;> simp [emit]
@[simp] theorem openTransport_rxFifo (i : BaudIdx) (s : State) :
    (openTransport i s).rxFifo = s.rxFifo := by
  unfold openTransport; cases s.opn <;> simp [emit]
@[simp] theorem openTransport_inbox (i : BaudIdx) (s : State) :
    (openTransport i s).inbox = s.inbox := by
  unfold openTransport; cases s.opn <;> simp [emit]
@[simp] theorem openTransport_trace (i : BaudIdx) (s : State) :
    (openTransport i s).trace = s.trace ++ ((if s.opn then [.closed] else []) ++ [.opened i]) := by
  unfold openTransport; cases s.opn <;> simp [emit]
@[simp] theorem openTransport_freeCtr (i : BaudIdx) (s : State) :
    (openTransport i s).freeCtr = s.freeCtr := by
  unfold openTransport; cases s.opn <;> simp [emit]

/-! ### beginSend -/

@[simp] theorem beginSend_phase (pkt : List Byte) (s : State) :
    (beginSend pkt s).phase = s.phase := rfl
@[simp] theorem beginSend_prog (pkt : List Byte) (s : State) :
    (beginSend pkt s).prog = s.prog := rfl
@[simp] theorem beginSend_upc (pkt : List Byte) (s : State) :
    (beginSend pkt s).upc = s.upc := rfl
@[simp] theorem beginSend_intent (pkt : List Byte) (s : State) :
    (beginSend pkt s).intent = s.intent := rfl
@[simp] theorem beginSend_cmd (pkt : List Byte) (s : State) :
    (beginSend pkt s).cmd = s.cmd := rfl
@[simp] theorem beginSend_opn (pkt : List Byte) (s : State) :
    (beginSend pkt s).opn = s.opn := rfl
@[simp] theorem beginSend_curBaud (pkt : List Byte) (s : State) :
    (beginSend pkt s).curBaud = s.curBaud := rfl
@[simp] theorem beginSend_baud (pkt : List Byte) (s : State) :
    (beginSend pkt s).baud = s.baud := rfl
@[simp] theorem beginSend_dir (pkt : List Byte) (s : State) :
    (beginSend pkt s).dir = .tx := rfl
@[simp] theorem beginSend_lst (pkt : List Byte) (s : State) :
    (beginSend pkt s).lst = .tx := rfl
@[simp] theorem beginSend_txi (pkt : List Byte) (s : State) :
    (beginSend pkt s).txi = 0 := rfl
@[simp] theorem beginSend_txn (pkt : List Byte) (s : State) :
    (beginSend pkt s).txn = pkt.length := rfl
@[simp] theorem beginSend_rxi (pkt : List Byte) (s : State) :
    (beginSend pkt s).rxi = s.rxi := rfl
@[simp] theorem beginSend_rxn (pkt : List Byte) (s : State) :
    (beginSend pkt s).rxn = s.rxn := rfl
@[simp] theorem beginSend_rxres (pkt : List Byte) (s : State) :
    (beginSend pkt s).rxres = s.rxres := rfl
@[simp] theorem beginSend_txbuf (pkt : List Byte) (s : State) :
    (beginSend pkt s).txbuf = pkt := rfl
@[simp] theorem beginSend_rxbuf (pkt : List Byte) (s : State) :
    (beginSend pkt s).rxbuf = s.rxbuf := rfl
@[simp] theorem beginSend_timer (pkt : List Byte) (s : State) :
    (beginSend pkt s).timer = s.timer := rfl
@[simp] theorem beginSend_rxdl (pkt : List Byte) (s : State) :
    (beginSend pkt s).rxdl = s.rxdl := rfl
@[simp] theorem beginSend_err (pkt : List Byte) (s : State) :
    (beginSend pkt s).err = s.err := rfl
@[simp] theorem beginSend_lasterr (pkt : List Byte) (s : State) :
    (beginSend pkt s).lasterr = s.lasterr := rfl
@[simp] theorem beginSend_doneMask (pkt : List Byte) (s : State) :
    (beginSend pkt s).doneMask = s.doneMask := rfl
@[simp] theorem beginSend_st (pkt : List Byte) (s : State) :
    (beginSend pkt s).st = s.st := rfl
@[simp] theorem beginSend_rd (pkt : List Byte) (s : State) :
    (beginSend pkt s).rd = s.rd := rfl
@[simp] theorem beginSend_params (pkt : List Byte) (s : State) :
    (beginSend pkt s).params = s.params := rfl
@[simp] theorem beginSend_codecOut (pkt : List Byte) (s : State) :
    (beginSend pkt s).codecOut = s.codecOut := rfl
@[simp] theorem beginSend_rxFifo (pkt : List Byte) (s : State) :
    (beginSend pkt s).rxFifo = s.rxFifo := rfl
@[simp] theorem beginSend_inbox (pkt : List Byte) (s : State) :
    (beginSend pkt s).inbox = s.inbox := rfl
@[simp] theorem beginSend_trace (pkt : List Byte) (s : State) :
    (beginSend pkt s).trace = s.trace ++ [.dir .tx] := rfl
@[simp] theorem beginSend_freeCtr (pkt : List Byte) (s : State) :
    (beginSend pkt s).freeCtr = s.freeCtr := rfl

/-! ### beginReceive -/

@[simp] theorem beginReceive_phase (len : Byte) (s : State) :
    (beginReceive len s).phase = s.phase := rfl
@[simp] theorem beginReceive_prog (len : Byte) (s : State) :
    (beginReceive len s).prog = s.prog := rfl
@[simp] theorem beginReceive_upc (len : Byte) (s : State) :
    (beginReceive len s).upc = s.upc := rfl
@[simp] theorem beginReceive_intent (len : Byte) (s : State) :
    (beginReceive len s).intent = s.intent := rfl
@[simp] theorem beginReceive_cmd (len : Byte) (s : State) :
    (beginReceive len s).cmd = s.cmd := rfl
@[simp] theorem beginReceive_opn (len : Byte) (s : State) :
    (beginReceive len s).opn = s.opn := rfl
@[simp] theorem beginReceive_curBaud (len : Byte) (s : State) :
    (beginReceive len s).curBaud = s.curBaud := rfl
@[simp] theorem beginReceive_baud (len : Byte) (s : State) :
    (beginReceive len s).baud = s.baud := rfl
@[simp] theorem beginReceive_dir (len : Byte) (s : State) :
    (beginReceive len s).dir = s.dir := rfl
@[simp] theorem beginReceive_lst (len : Byte) (s : State) :
    (beginReceive len s).lst = .hunt1 := rfl
@[simp] theorem beginReceive_txi (len : Byte) (s : State) :
    (beginReceive len s).txi = s.txi := rfl
@[simp] theorem beginReceive_txn (len : Byte) (s : State) :
    (beginReceive len s).txn = s.txn := rfl
@[simp] theorem beginReceive_rxi (len : Byte) (s : State) :
    (beginReceive len s).rxi = s.rxi := rfl
@[simp] theorem beginReceive_rxn (len : Byte) (s : State) :
    (beginReceive len s).rxn = 5 + len.toNat + 1 := rfl
@[simp] theorem beginReceive_rxres (len : Byte) (s : State) :
    (beginReceive len s).rxres = .none := rfl
@[simp] theorem beginReceive_txbuf (len : Byte) (s : State) :
    (beginReceive len s).txbuf = s.txbuf := rfl
@[simp] theorem beginReceive_rxbuf (len : Byte) (s : State) :
    (beginReceive len s).rxbuf = s.rxbuf := rfl
@[simp] theorem beginReceive_timer (len : Byte) (s : State) :
    (beginReceive len s).timer = s.timer := rfl
@[simp] theorem beginReceive_rxdl (len : Byte) (s : State) :
    (beginReceive len s).rxdl = .running := rfl
@[simp] theorem beginReceive_err (len : Byte) (s : State) :
    (beginReceive len s).err = s.err := rfl
@[simp] theorem beginReceive_lasterr (len : Byte) (s : State) :
    (beginReceive len s).lasterr = s.lasterr := rfl
@[simp] theorem beginReceive_doneMask (len : Byte) (s : State) :
    (beginReceive len s).doneMask = s.doneMask := rfl
@[simp] theorem beginReceive_st (len : Byte) (s : State) :
    (beginReceive len s).st = s.st := rfl
@[simp] theorem beginReceive_rd (len : Byte) (s : State) :
    (beginReceive len s).rd = s.rd := rfl
@[simp] theorem beginReceive_params (len : Byte) (s : State) :
    (beginReceive len s).params = s.params := rfl
@[simp] theorem beginReceive_codecOut (len : Byte) (s : State) :
    (beginReceive len s).codecOut = s.codecOut := rfl
@[simp] theorem beginReceive_rxFifo (len : Byte) (s : State) :
    (beginReceive len s).rxFifo = s.rxFifo := rfl
@[simp] theorem beginReceive_inbox (len : Byte) (s : State) :
    (beginReceive len s).inbox = s.inbox := rfl
@[simp] theorem beginReceive_trace (len : Byte) (s : State) :
    (beginReceive len s).trace = s.trace := rfl
@[simp] theorem beginReceive_freeCtr (len : Byte) (s : State) :
    (beginReceive len s).freeCtr = s.freeCtr := rfl

/-! ### beginWait -/

@[simp] theorem beginWait_phase (ms : Nat) (s : State) :
    (beginWait ms s).phase = s.phase := rfl
@[simp] theorem beginWait_prog (ms : Nat) (s : State) :
    (beginWait ms s).prog = s.prog := rfl
@[simp] theorem beginWait_upc (ms : Nat) (s : State) :
    (beginWait ms s).upc = s.upc := rfl
@[simp] theorem beginWait_intent (ms : Nat) (s : State) :
    (beginWait ms s).intent = s.intent := rfl
@[simp] theorem beginWait_cmd (ms : Nat) (s : State) :
    (beginWait ms s).cmd = s.cmd := rfl
@[simp] theorem beginWait_opn (ms : Nat) (s : State) :
    (beginWait ms s).opn = s.opn := rfl
@[simp] theorem beginWait_curBaud (ms : Nat) (s : State) :
    (beginWait ms s).curBaud = s.curBaud := rfl
@[simp] theorem beginWait_baud (ms : Nat) (s : State) :
    (beginWait ms s).baud = s.baud := rfl
@[simp] theorem beginWait_dir (ms : Nat) (s : State) :
    (beginWait ms s).dir = s.dir := rfl
@[simp] theorem beginWait_lst (ms : Nat) (s : State) :
    (beginWait ms s).lst = s.lst := rfl
@[simp] theorem beginWait_txi (ms : Nat) (s : State) :
    (beginWait ms s).txi = s.txi := rfl
@[simp] theorem beginWait_txn (ms : Nat) (s : State) :
    (beginWait ms s).txn = s.txn := rfl
@[simp] theorem beginWait_rxi (ms : Nat) (s : State) :
    (beginWait ms s).rxi = s.rxi := rfl
@[simp] theorem beginWait_rxn (ms : Nat) (s : State) :
    (beginWait ms s).rxn = s.rxn := rfl
@[simp] theorem beginWait_rxres (ms : Nat) (s : State) :
    (beginWait ms s).rxres = s.rxres := rfl
@[simp] theorem beginWait_txbuf (ms : Nat) (s : State) :
    (beginWait ms s).txbuf = s.txbuf := rfl
@[simp] theorem beginWait_rxbuf (ms : Nat) (s : State) :
    (beginWait ms s).rxbuf = s.rxbuf := rfl
@[simp] theorem beginWait_timer (ms : Nat) (s : State) :
    (beginWait ms s).timer = some ms := rfl
@[simp] theorem beginWait_rxdl (ms : Nat) (s : State) :
    (beginWait ms s).rxdl = s.rxdl := rfl
@[simp] theorem beginWait_err (ms : Nat) (s : State) :
    (beginWait ms s).err = s.err := rfl
@[simp] theorem beginWait_lasterr (ms : Nat) (s : State) :
    (beginWait ms s).lasterr = s.lasterr := rfl
@[simp] theorem beginWait_doneMask (ms : Nat) (s : State) :
    (beginWait ms s).doneMask = s.doneMask := rfl
@[simp] theorem beginWait_st (ms : Nat) (s : State) :
    (beginWait ms s).st = s.st := rfl
@[simp] theorem beginWait_rd (ms : Nat) (s : State) :
    (beginWait ms s).rd = s.rd := rfl
@[simp] theorem beginWait_params (ms : Nat) (s : State) :
    (beginWait ms s).params = s.params := rfl
@[simp] theorem beginWait_codecOut (ms : Nat) (s : State) :
    (beginWait ms s).codecOut = s.codecOut := rfl
@[simp] theorem beginWait_rxFifo (ms : Nat) (s : State) :
    (beginWait ms s).rxFifo = s.rxFifo := rfl
@[simp] theorem beginWait_inbox (ms : Nat) (s : State) :
    (beginWait ms s).inbox = s.inbox := rfl
@[simp] theorem beginWait_trace (ms : Nat) (s : State) :
    (beginWait ms s).trace = s.trace ++ [.delay ms] := rfl
@[simp] theorem beginWait_freeCtr (ms : Nat) (s : State) :
    (beginWait ms s).freeCtr = s.freeCtr := rfl

/-! ### stageByte -/

@[simp] theorem stageByte_phase (b : Byte) (s : State) :
    (stageByte b s).phase = s.phase := rfl
@[simp] theorem stageByte_prog (b : Byte) (s : State) :
    (stageByte b s).prog = s.prog := rfl
@[simp] theorem stageByte_upc (b : Byte) (s : State) :
    (stageByte b s).upc = s.upc := rfl
@[simp] theorem stageByte_intent (b : Byte) (s : State) :
    (stageByte b s).intent = s.intent := rfl
@[simp] theorem stageByte_cmd (b : Byte) (s : State) :
    (stageByte b s).cmd = s.cmd := rfl
@[simp] theorem stageByte_opn (b : Byte) (s : State) :
    (stageByte b s).opn = s.opn := rfl
@[simp] theorem stageByte_curBaud (b : Byte) (s : State) :
    (stageByte b s).curBaud = s.curBaud := rfl
@[simp] theorem stageByte_baud (b : Byte) (s : State) :
    (stageByte b s).baud = s.baud := rfl
@[simp] theorem stageByte_dir (b : Byte) (s : State) :
    (stageByte b s).dir = s.dir := rfl
@[simp] theorem stageByte_lst (b : Byte) (s : State) :
    (stageByte b s).lst = s.lst := rfl
@[simp] theorem stageByte_txi (b : Byte) (s : State) :
    (stageByte b s).txi = s.txi := rfl
@[simp] theorem stageByte_txn (b : Byte) (s : State) :
    (stageByte b s).txn = s.txn := rfl
@[simp] theorem stageByte_rxi (b : Byte) (s : State) :
    (stageByte b s).rxi = s.rxi + 1 := rfl
@[simp] theorem stageByte_rxn (b : Byte) (s : State) :
    (stageByte b s).rxn = s.rxn := rfl
@[simp] theorem stageByte_rxres (b : Byte) (s : State) :
    (stageByte b s).rxres = s.rxres := rfl
@[simp] theorem stageByte_txbuf (b : Byte) (s : State) :
    (stageByte b s).txbuf = s.txbuf := rfl
@[simp] theorem stageByte_rxbuf (b : Byte) (s : State) :
    (stageByte b s).rxbuf = s.rxbuf.take s.rxi ++ [b] := rfl
@[simp] theorem stageByte_timer (b : Byte) (s : State) :
    (stageByte b s).timer = s.timer := rfl
@[simp] theorem stageByte_rxdl (b : Byte) (s : State) :
    (stageByte b s).rxdl = s.rxdl := rfl
@[simp] theorem stageByte_err (b : Byte) (s : State) :
    (stageByte b s).err = s.err := rfl
@[simp] theorem stageByte_lasterr (b : Byte) (s : State) :
    (stageByte b s).lasterr = s.lasterr := rfl
@[simp] theorem stageByte_doneMask (b : Byte) (s : State) :
    (stageByte b s).doneMask = s.doneMask := rfl
@[simp] theorem stageByte_st (b : Byte) (s : State) :
    (stageByte b s).st = s.st := rfl
@[simp] theorem stageByte_rd (b : Byte) (s : State) :
    (stageByte b s).rd = s.rd := rfl
@[simp] theorem stageByte_params (b : Byte) (s : State) :
    (stageByte b s).params = s.params := rfl
@[simp] theorem stageByte_codecOut (b : Byte) (s : State) :
    (stageByte b s).codecOut = s.codecOut := rfl
@[simp] theorem stageByte_rxFifo (b : Byte) (s : State) :
    (stageByte b s).rxFifo = s.rxFifo := rfl
@[simp] theorem stageByte_inbox (b : Byte) (s : State) :
    (stageByte b s).inbox = s.inbox := rfl
@[simp] theorem stageByte_trace (b : Byte) (s : State) :
    (stageByte b s).trace = s.trace := rfl
@[simp] theorem stageByte_freeCtr (b : Byte) (s : State) :
    (stageByte b s).freeCtr = s.freeCtr := rfl

/-! ### receiveWireByte -/

@[simp] theorem receiveWireByte_phase (b : Byte) (s : State) :
    (receiveWireByte b s).phase = s.phase := rfl
@[simp] theorem receiveWireByte_prog (b : Byte) (s : State) :
    (receiveWireByte b s).prog = s.prog := rfl
@[simp] theorem receiveWireByte_upc (b : Byte) (s : State) :
    (receiveWireByte b s).upc = s.upc := rfl
@[simp] theorem receiveWireByte_intent (b : Byte) (s : State) :
    (receiveWireByte b s).intent = s.intent := rfl
@[simp] theorem receiveWireByte_cmd (b : Byte) (s : State) :
    (receiveWireByte b s).cmd = s.cmd := rfl
@[simp] theorem receiveWireByte_opn (b : Byte) (s : State) :
    (receiveWireByte b s).opn = s.opn := rfl
@[simp] theorem receiveWireByte_curBaud (b : Byte) (s : State) :
    (receiveWireByte b s).curBaud = s.curBaud := rfl
@[simp] theorem receiveWireByte_baud (b : Byte) (s : State) :
    (receiveWireByte b s).baud = s.baud := rfl
@[simp] theorem receiveWireByte_dir (b : Byte) (s : State) :
    (receiveWireByte b s).dir = s.dir := rfl
@[simp] theorem receiveWireByte_lst (b : Byte) (s : State) :
    (receiveWireByte b s).lst = s.lst := rfl
@[simp] theorem receiveWireByte_txi (b : Byte) (s : State) :
    (receiveWireByte b s).txi = s.txi := rfl
@[simp] theorem receiveWireByte_txn (b : Byte) (s : State) :
    (receiveWireByte b s).txn = s.txn := rfl
@[simp] theorem receiveWireByte_rxi (b : Byte) (s : State) :
    (receiveWireByte b s).rxi = s.rxi := rfl
@[simp] theorem receiveWireByte_rxn (b : Byte) (s : State) :
    (receiveWireByte b s).rxn = s.rxn := rfl
@[simp] theorem receiveWireByte_rxres (b : Byte) (s : State) :
    (receiveWireByte b s).rxres = s.rxres := rfl
@[simp] theorem receiveWireByte_txbuf (b : Byte) (s : State) :
    (receiveWireByte b s).txbuf = s.txbuf := rfl
@[simp] theorem receiveWireByte_rxbuf (b : Byte) (s : State) :
    (receiveWireByte b s).rxbuf = s.rxbuf := rfl
@[simp] theorem receiveWireByte_timer (b : Byte) (s : State) :
    (receiveWireByte b s).timer = s.timer := rfl
@[simp] theorem receiveWireByte_rxdl (b : Byte) (s : State) :
    (receiveWireByte b s).rxdl = s.rxdl := rfl
@[simp] theorem receiveWireByte_err (b : Byte) (s : State) :
    (receiveWireByte b s).err = s.err := rfl
@[simp] theorem receiveWireByte_lasterr (b : Byte) (s : State) :
    (receiveWireByte b s).lasterr = s.lasterr := rfl
@[simp] theorem receiveWireByte_doneMask (b : Byte) (s : State) :
    (receiveWireByte b s).doneMask = s.doneMask := rfl
@[simp] theorem receiveWireByte_st (b : Byte) (s : State) :
    (receiveWireByte b s).st = s.st := rfl
@[simp] theorem receiveWireByte_rd (b : Byte) (s : State) :
    (receiveWireByte b s).rd = s.rd := rfl
@[simp] theorem receiveWireByte_params (b : Byte) (s : State) :
    (receiveWireByte b s).params = s.params := rfl
@[simp] theorem receiveWireByte_codecOut (b : Byte) (s : State) :
    (receiveWireByte b s).codecOut = s.codecOut := rfl
@[simp] theorem receiveWireByte_rxFifo (b : Byte) (s : State) :
    (receiveWireByte b s).rxFifo = s.rxFifo ++ [b] := rfl
@[simp] theorem receiveWireByte_inbox (b : Byte) (s : State) :
    (receiveWireByte b s).inbox = s.inbox := rfl
@[simp] theorem receiveWireByte_trace (b : Byte) (s : State) :
    (receiveWireByte b s).trace = s.trace := rfl
@[simp] theorem receiveWireByte_freeCtr (b : Byte) (s : State) :
    (receiveWireByte b s).freeCtr = s.freeCtr := rfl

/-! ### applyReset -/

@[simp] theorem applyReset_phase (s : State) :
    (applyReset s).phase = State.reset.phase := rfl
@[simp] theorem applyReset_prog (s : State) :
    (applyReset s).prog = State.reset.prog := rfl
@[simp] theorem applyReset_upc (s : State) :
    (applyReset s).upc = State.reset.upc := rfl
@[simp] theorem applyReset_intent (s : State) :
    (applyReset s).intent = State.reset.intent := rfl
@[simp] theorem applyReset_cmd (s : State) :
    (applyReset s).cmd = State.reset.cmd := rfl
@[simp] theorem applyReset_opn (s : State) :
    (applyReset s).opn = State.reset.opn := rfl
@[simp] theorem applyReset_curBaud (s : State) :
    (applyReset s).curBaud = State.reset.curBaud := rfl
@[simp] theorem applyReset_baud (s : State) :
    (applyReset s).baud = State.reset.baud := rfl
@[simp] theorem applyReset_dir (s : State) :
    (applyReset s).dir = State.reset.dir := rfl
@[simp] theorem applyReset_lst (s : State) :
    (applyReset s).lst = State.reset.lst := rfl
@[simp] theorem applyReset_txi (s : State) :
    (applyReset s).txi = State.reset.txi := rfl
@[simp] theorem applyReset_txn (s : State) :
    (applyReset s).txn = State.reset.txn := rfl
@[simp] theorem applyReset_rxi (s : State) :
    (applyReset s).rxi = State.reset.rxi := rfl
@[simp] theorem applyReset_rxn (s : State) :
    (applyReset s).rxn = State.reset.rxn := rfl
@[simp] theorem applyReset_rxres (s : State) :
    (applyReset s).rxres = State.reset.rxres := rfl
@[simp] theorem applyReset_txbuf (s : State) :
    (applyReset s).txbuf = State.reset.txbuf := rfl
@[simp] theorem applyReset_rxbuf (s : State) :
    (applyReset s).rxbuf = State.reset.rxbuf := rfl
@[simp] theorem applyReset_timer (s : State) :
    (applyReset s).timer = State.reset.timer := rfl
@[simp] theorem applyReset_rxdl (s : State) :
    (applyReset s).rxdl = State.reset.rxdl := rfl
@[simp] theorem applyReset_err (s : State) :
    (applyReset s).err = State.reset.err := rfl
@[simp] theorem applyReset_lasterr (s : State) :
    (applyReset s).lasterr = State.reset.lasterr := rfl
@[simp] theorem applyReset_doneMask (s : State) :
    (applyReset s).doneMask = State.reset.doneMask := rfl
@[simp] theorem applyReset_st (s : State) :
    (applyReset s).st = State.reset.st := rfl
@[simp] theorem applyReset_rd (s : State) :
    (applyReset s).rd = State.reset.rd := rfl
@[simp] theorem applyReset_params (s : State) :
    (applyReset s).params = s.params := rfl
@[simp] theorem applyReset_codecOut (s : State) :
    (applyReset s).codecOut = State.reset.codecOut := rfl
@[simp] theorem applyReset_rxFifo (s : State) :
    (applyReset s).rxFifo = s.rxFifo := rfl
@[simp] theorem applyReset_inbox (s : State) :
    (applyReset s).inbox = s.inbox := rfl
@[simp] theorem applyReset_trace (s : State) :
    (applyReset s).trace = s.trace := rfl
@[simp] theorem applyReset_freeCtr (s : State) :
    (applyReset s).freeCtr = s.freeCtr + 1 := rfl

/-! ### completeUop -/

@[simp] theorem completeUop_prog (s : State) : (completeUop s).prog = s.prog := by
  unfold completeUop; split <;> rfl
@[simp] theorem completeUop_intent (s : State) : (completeUop s).intent = s.intent := by
  unfold completeUop; split <;> rfl
@[simp] theorem completeUop_cmd (s : State) : (completeUop s).cmd = s.cmd := by
  unfold completeUop; split <;> rfl
@[simp] theorem completeUop_opn (s : State) : (completeUop s).opn = s.opn := by
  unfold completeUop; split <;> rfl
@[simp] theorem completeUop_curBaud (s : State) : (completeUop s).curBaud = s.curBaud := by
  unfold completeUop; split <;> rfl
@[simp] theorem completeUop_baud (s : State) : (completeUop s).baud = s.baud := by
  unfold completeUop; split <;> rfl
@[simp] theorem completeUop_dir (s : State) : (completeUop s).dir = s.dir := by
  unfold completeUop; split <;> rfl
@[simp] theorem completeUop_lst (s : State) : (completeUop s).lst = s.lst := by
  unfold completeUop; split <;> rfl
@[simp] theorem completeUop_txi (s : State) : (completeUop s).txi = s.txi := by
  unfold completeUop; split <;> rfl
@[simp] theorem completeUop_txn (s : State) : (completeUop s).txn = s.txn := by
  unfold completeUop; split <;> rfl
@[simp] theorem completeUop_rxi (s : State) : (completeUop s).rxi = s.rxi := by
  unfold completeUop; split <;> rfl
@[simp] theorem completeUop_rxn (s : State) : (completeUop s).rxn = s.rxn := by
  unfold completeUop; split <;> rfl
@[simp] theorem completeUop_rxres (s : State) : (completeUop s).rxres = s.rxres := by
  unfold completeUop; split <;> rfl
@[simp] theorem completeUop_txbuf (s : State) : (completeUop s).txbuf = s.txbuf := by
  unfold completeUop; split <;> rfl
@[simp] theorem completeUop_rxbuf (s : State) : (completeUop s).rxbuf = s.rxbuf := by
  unfold completeUop; split <;> rfl
@[simp] theorem completeUop_timer (s : State) : (completeUop s).timer = s.timer := by
  unfold completeUop; split <;> rfl
@[simp] theorem completeUop_rxdl (s : State) : (completeUop s).rxdl = s.rxdl := by
  unfold completeUop; split <;> rfl
@[simp] theorem completeUop_err (s : State) : (completeUop s).err = s.err := by
  unfold completeUop; split <;> rfl
@[simp] theorem completeUop_lasterr (s : State) : (completeUop s).lasterr = s.lasterr := by
  unfold completeUop; split <;> rfl
@[simp] theorem completeUop_st (s : State) : (completeUop s).st = s.st := by
  unfold completeUop; split <;> rfl
@[simp] theorem completeUop_rd (s : State) : (completeUop s).rd = s.rd := by
  unfold completeUop; split <;> rfl
@[simp] theorem completeUop_params (s : State) : (completeUop s).params = s.params := by
  unfold completeUop; split <;> rfl
@[simp] theorem completeUop_codecOut (s : State) : (completeUop s).codecOut = s.codecOut := by
  unfold completeUop; split <;> rfl
@[simp] theorem completeUop_rxFifo (s : State) : (completeUop s).rxFifo = s.rxFifo := by
  unfold completeUop; split <;> rfl
@[simp] theorem completeUop_inbox (s : State) : (completeUop s).inbox = s.inbox := by
  unfold completeUop; split <;> rfl
@[simp] theorem completeUop_trace (s : State) : (completeUop s).trace = s.trace := by
  unfold completeUop; split <;> rfl
@[simp] theorem completeUop_freeCtr (s : State) : (completeUop s).freeCtr = s.freeCtr := by
  unfold completeUop; split <;> rfl

end Sys2Proof.Machine
end

