-- ==== Sys2Proof/Laws/Ops.lean ====
section
/-! SUPPORT. What each shared operation and each step can do, said once. -/

namespace Sys2Proof.Machine

/-! ### The program counter -/

theorem completeUop_of_not_busy {s : State} (h : s.busy = false) : completeUop s = s := by
  simp [completeUop, h]

theorem completeUop_running {s : State} (hb : s.busy = true) (hu : s.upc < s.prog.length) :
    completeUop s =
      { s with
        upc := s.upc + 1
        doneMask := if s.phase = .session then s.doneMask ||| completedBit s.prog s.upc
          else s.doneMask
        phase := if s.upc + 1 = s.prog.length then .ready else s.phase } := by
  simp [completeUop, hb, hu]

/-- Either nothing runs and nothing changes, or the program counter advances by one. -/
theorem completeUop_cases (s : State) :
    completeUop s = s ∨
      (s.busy = true ∧ s.upc < s.prog.length ∧ (completeUop s).upc = s.upc + 1 ∧
        (completeUop s).phase = if s.upc + 1 = s.prog.length then .ready else s.phase) := by
  by_cases h : s.busy = true ∧ s.upc < s.prog.length
  · exact .inr ⟨h.1, h.2, by simp [completeUop, h], by simp [completeUop, h]⟩
  · exact .inl (by simp only [completeUop, if_neg h])

theorem currentUop_lt {s : State} {u : UOp} (h : s.currentUop = some u) :
    s.upc < s.prog.length := by
  by_contra hn
  simp [State.currentUop, List.getElem?_eq_none (Nat.le_of_not_lt hn)] at h

theorem fetchUop_some {s : State} {u : UOp} (h : fetchUop s = some u) :
    s.busy = true ∧ s.lst = .idle ∧ s.timer = none ∧ s.currentUop = some u := by
  unfold fetchUop at h
  split at h
  · next hc => exact ⟨hc.1, hc.2.1, hc.2.2, h⟩
  · cases h

theorem fetchUop_of_current {s : State} {u : UOp} (hb : s.busy = true) (hl : s.lst = .idle)
    (ht : s.timer = none) (hu : s.currentUop = some u) : fetchUop s = some u := by
  simp [fetchUop, hb, hl, ht, ← hu, State.currentUop]

theorem fetchUop_of_link_active {s : State} (h : s.lst ≠ .idle) : fetchUop s = none := by
  simp [fetchUop, h]

theorem fetchUop_of_timer {s : State} {ms : Nat} (h : s.timer = some ms) : fetchUop s = none := by
  simp [fetchUop, h]

/-! ### Calls -/

/-- A call is refused with one of four informations, or accepted. -/
theorem callCommand_cases (c : CmdCall) (s : State) :
    (s.phase ≠ .ready ∧ callCommand c s = refuseCall .commandRefused 1 s) ∨
    (s.phase = .ready ∧ validId c.id = false ∧ callCommand c s = refuseCall .commandRefused 2 s) ∨
    (s.phase = .ready ∧ validId c.id = true ∧ c.inRange = false ∧
      callCommand c s = refuseCall .commandRefused 3 s) ∨
    (s.phase = .ready ∧ validId c.id = true ∧ c.inRange = true ∧ c.lengthOk = false ∧
      callCommand c s = refuseCall .commandRefused 4 s) ∨
    (s.phase = .ready ∧ validId c.id = true ∧ c.inRange = true ∧ c.lengthOk = true ∧
      callCommand c s = acceptCmd c s) := by
  unfold callCommand
  by_cases h1 : s.phase = .ready <;> cases h2 : validId c.id <;> cases h3 : c.inRange <;>
    cases h4 : c.lengthOk <;> simp [h1]

/-- The call a command's meaning makes. -/
def commandCall (s : State) (i : Instr) : Option CmdCall :=
  match i with
  | .romcommit id => some
      { op := .romcommit, id := id, prog := commitProgram s.params id }
  | .reboot id => some
      { op := .reboot, id := id, prog := rebootProgram s.params id }
  | .freset id => some
      { op := .freset, id := id, prog := resetProgram s.params id }
  | .setid id v => some
      { op := .setid, id := id, data := [v], inRange := newIdInRange v,
        prog := writeProgram id aId 1 [v] }
  | .setrev id r => some
      { op := .setrev, id := id, data := [r], inRange := rotInRange r,
        prog := writeProgram id aRev 1 [r] }
  | .setbaud id idx => some
      { op := .setbaud, id := id, data := [idx], inRange := idxInRange idx,
        prog := writeProgram id aBaud 1 [idx] }
  | .setdelay id c => some
      { op := .setdelay, id := id, data := [c], inRange := delayInRange c,
        prog := writeProgram id aDelay 1 [c] }
  | .torque id en => some
      { op := .torque, id := id, data := [en], inRange := torqueInRange en,
        prog := writeProgram id aTorque 1 [en] }
  | .move id angle time => some
      { op := .move, id := id, angle := some (tc16 angle),
        time := some time, inRange := angleInRange angle,
        prog := writeProgram id aGoal 4 (movePayload angle time) }
  | .rdstat id => some
      { op := .rdstat, id := id,
        prog := readProgram id statusAddr s.params.statusLen }
  | .rdangle id => some
      { op := .rdangle, id := id,
        prog := readProgram id aAngle s.params.angleLen }
  | .write id addr len data => some
      { op := .write, id := id, addr := some addr, len := some len,
        data := data, lengthOk := decide (data.length = len.toNat),
        prog := writeProgram id addr len data }
  | .read id addr len => some
      { op := .read, id := id, addr := some addr, len := some len,
        prog := readProgram id addr len }
  | .persist id => some
      { op := .persist, id := id, prog := persistProgram s.params id }
  | .response _ _ _ _ _ _ | .xsum _ | .encode _ _ _ _ _ _ | .decode _ | .reopen _ | .send _
  | .receive _ | .wait _ | .sweep _ | .session _ => none

/-- Every command is one call. -/
theorem exec_command {i : Instr} (h : i.isCommand = true) (s : State) :
    ∃ c, commandCall s i = some c ∧ exec i s = .next (callCommand c s) := by
  cases i <;> first | exact ⟨_, rfl, rfl⟩ | (simp [Instr.isCommand] at h)

/-- `Start` is refused with one of three informations, or accepted. -/
theorem execSession_cases (c : Intent) (s : State) :
    (s.phase ≠ .idle ∧ execSession c s = .next (refuseCall .configRefused 3 s)) ∨
    (s.phase = .idle ∧ 11 < c.tbaud.toNat ∧
      execSession c s = .next (refuseCall .configRefused 1 s)) ∨
    (s.phase = .idle ∧ c.tbaud.toNat ≤ 11 ∧ 127 < c.newid.toNat ∧
      execSession c s = .next (refuseCall .configRefused 2 s)) ∨
    (s.phase = .idle ∧ intentValid c = true ∧ execSession c s = .next (acceptStart c s)) := by
  unfold execSession intentValid
  by_cases h1 : s.phase = .idle <;> by_cases h2 : 11 < c.tbaud.toNat <;>
    by_cases h3 : 127 < c.newid.toNat <;> simp [h1, h2, h3] <;> omega

/-! ### Steps -/

/-- The frames step takes decode to a command or to a response. -/
theorem decode_ok_kind {p : Params} {bs : List Byte} {i : Instr} (h : decode p bs = .ok i) :
    i.isCommand = true ∨ ∃ id flags addr len count payload,
      i = .response id flags addr len count payload := by
  unfold decode at h
  repeat' split at h
  all_goals first
    | exact .inr ⟨_, _, _, _, _, _, (Except.ok.inj h).symm⟩
    | cases h
    | (unfold classify at h
       repeat' split at h
       all_goals (cases h; try exact .inl rfl))

/-- What the framer's own move can be. -/
theorem framerMove_cases (s : State) :
    (∃ i, s.currentUop = some (.uopen i) ∧ framerMove s = execReopen i s) ∨
    (∃ pkt, s.currentUop = some (.usend pkt) ∧ framerMove s = execSend pkt s) ∨
    (∃ len, s.currentUop = some (.urecv len) ∧ framerMove s = execReceive len s) ∨
    (∃ ms, s.currentUop = some (.uwait ms) ∧ framerMove s = execWait ms s) ∨
    (∃ i, s.currentUop = some (.ubaud i) ∧ s.busy = true ∧ s.lst = .idle ∧ s.timer = none ∧
      framerMove s = .next (runBaud i s)) ∨
    (s.currentUop = some .ureport ∧ s.busy = true ∧ s.lst = .idle ∧ s.timer = none ∧
      framerMove s = .next (runReport s)) ∨
    (s.currentUop = some .urdlatch ∧ s.busy = true ∧ s.lst = .idle ∧ s.timer = none ∧
      framerMove s = .next (runRdlatch s)) ∨
    (fetchUop s = none ∧ framerMove s = .next (engineMove s)) := by
  unfold framerMove
  cases h : fetchUop s with
  | none => simp
  | some u =>
    obtain ⟨hb, hl, ht, hc⟩ := fetchUop_some h
    cases u <;> simp [hc, hb, hl, ht, UOp.toInstr, exec, runInternal]

/-- What an answered step is: an input taken, or the framer's move. -/
theorem step_cases {s t : State} (h : step s = .next t) :
    (s.inbox = [] ∧ framerMove s = .next t) ∨
    (∃ rest, s.inbox = .tick :: rest ∧ framerMove { s with inbox := rest } = .next t) ∨
    (∃ rest, s.inbox = .reset :: rest ∧ t = applyReset { s with inbox := rest }) ∨
    (∃ c rest, s.inbox = .start c :: rest ∧ execSession c { s with inbox := rest } = .next t) ∨
    (∃ e rest i c, s.inbox = e :: rest ∧ ((∃ j, e = .cmd j) ∨ ∃ bs, e = .frame bs) ∧
      i.isCommand = true ∧ commandCall { s with inbox := rest } i = some c ∧
      t = callCommand c { s with inbox := rest }) ∨
    (∃ bs rest id flags addr len count payload, s.inbox = .frame bs :: rest ∧
      execResponse id flags addr len count payload { s with inbox := rest } = .next t) ∨
    (∃ rest, s.inbox = .drained :: rest ∧ t = takeDrained { s with inbox := rest }) ∨
    (∃ b rest, s.inbox = .rx b :: rest ∧ t = receiveWireByte b { s with inbox := rest }) ∨
    (∃ rest, s.inbox = .rxTimeout :: rest ∧ t = takeTimeout { s with inbox := rest }) := by
  unfold step at h
  split at h
  · next hi => exact .inl ⟨hi, h⟩
  · next e rest hi =>
    refine .inr ?_
    cases e with
    | tick => exact .inl ⟨rest, hi, h⟩
    | reset => exact .inr (.inl ⟨rest, hi, by simpa using h.symm⟩)
    | start c => exact .inr (.inr (.inl ⟨c, rest, hi, h⟩))
    | cmd i =>
      refine .inr (.inr (.inr (.inl ?_)))
      cases hk : i.isCommand with
      | false => simp [hk] at h
      | true =>
        obtain ⟨c, hc, he⟩ := exec_command hk { s with inbox := rest }
        simp only [hk, if_true, he] at h
        exact ⟨_, rest, i, c, hi, .inl ⟨i, rfl⟩, hk, hc, by simpa using h.symm⟩
    | frame bs =>
      simp only at h
      split at h
      · next i hd =>
        rcases decode_ok_kind hd with hk | ⟨id, flags, addr, len, count, payload, rfl⟩
        · obtain ⟨c, hc, he⟩ := exec_command hk { s with inbox := rest }
          rw [he] at h
          exact .inr (.inr (.inr (.inl ⟨_, rest, i, c, hi, .inr ⟨bs, rfl⟩, hk, hc,
            by simpa using h.symm⟩)))
        · exact .inr (.inr (.inr (.inr (.inl ⟨bs, rest, id, flags, addr, len, count, payload,
            hi, h⟩))))
      · cases h
    | drained => exact .inr (.inr (.inr (.inr (.inr (.inl ⟨rest, hi, by simpa using h.symm⟩)))))
    | rx b => exact .inr (.inr (.inr (.inr (.inr (.inr (.inl ⟨b, rest, hi, by simpa using h.symm⟩))))))
    | rxTimeout =>
      exact .inr (.inr (.inr (.inr (.inr (.inr (.inr ⟨rest, hi, by simpa using h.symm⟩))))))

/-! ### The link engine -/

/-- A begun link operation either has its effect or stops by name. -/
theorem execReopen_next {i : BaudIdx} {s t : State} (h : execReopen i s = .next t) :
    s.Between ∧ t = completeUop (openTransport i s) := by
  unfold execReopen at h; split at h
  · next hb => exact ⟨hb, by simpa using h.symm⟩
  · cases h

theorem execSend_next {pkt : List Byte} {s t : State} (h : execSend pkt s = .next t) :
    s.Between ∧ s.opn = true ∧ t = beginSend pkt s := by
  unfold execSend at h; split at h
  · next hb =>
    split at h
    · next ho => exact ⟨hb, ho, by simpa using h.symm⟩
    · cases h
  · cases h

theorem execReceive_next {len : Byte} {s t : State} (h : execReceive len s = .next t) :
    s.Between ∧ t = beginReceive len s := by
  unfold execReceive at h; split at h
  · next hb => exact ⟨hb, by simpa using h.symm⟩
  · cases h

theorem execWait_next {ms : Nat} {s t : State} (h : execWait ms s = .next t) :
    s.Between ∧ t = beginWait ms s := by
  unfold execWait at h; split at h
  · next hb => exact ⟨hb, by simpa using h.symm⟩
  · cases h

/-- The check of a staged body: accepted, or recorded and the hunt resumed. -/
theorem checkBody_cases (s : State) :
    (∃ f, decodeBody (s.rxbuf.take s.rxn) = .ok f ∧ checkBody s = endReceive .ok s) ∨
    ((∀ f, decodeBody (s.rxbuf.take s.rxn) ≠ .ok f) ∧
      checkBody s = { dropRxbuf (raiseError .checksumMismatch 0 s) with lst := .hunt1 }) := by
  unfold checkBody
  cases h : decodeBody (s.rxbuf.take s.rxn) with
  | ok f => exact .inl ⟨f, rfl, rfl⟩
  | checksumMismatch => exact .inr ⟨by simp, rfl⟩
  | malformed => exact .inr ⟨by simp, rfl⟩

/-- `Drained` ends a waiting SEND and is ignored elsewhere. -/
theorem takeDrained_cases (s : State) :
    (s.lst = .drain ∧ takeDrained s =
      completeUop (dropTxbuf { emit (.dir .rx) s with dir := .rx, lst := .idle })) ∨
    (s.lst ≠ .drain ∧ takeDrained s = s) := by
  unfold takeDrained; split
  · next h => exact .inl ⟨h, rfl⟩
  · next h => exact .inr ⟨h, rfl⟩

/-- `RxTimeout` ends a waiting RECEIVE and is ignored elsewhere. -/
theorem takeTimeout_cases (s : State) :
    (s.receiving ∧ ∃ info, takeTimeout s =
      endReceive .timeout (dropRxbuf (raiseError .headerSyncTimeout info s))) ∨
    (¬ s.receiving ∧ takeTimeout s = s) := by
  unfold takeTimeout State.receiving
  cases s.lst <;> simp <;> exact ⟨_, rfl⟩

end Sys2Proof.Machine
end

