-- ==== Sys2Proof/Laws/PerInstr.lean ====
section
/-! SUPPORT. What holds of every instruction as syntax, one lemma per constructor. -/

namespace Sys2Proof.Laws.FrameForm

open Sys2Proof Sys2Proof.Machine

/-- An instruction that has a frame has one of at least eight bytes, with the header of a request
or, for a response, of a response, and bytes after the header whose exclusive-or is zero (30_encoding.md
R90, R91, R100, R101). -/
def Statement (i : Instr) : Prop :=
  ∀ (p : Params) (bs : List Byte), encode p i = some bs →
    8 ≤ bs.length ∧ xsum (bs.drop 2) = 0 ∧
      (bs.take 2 = [0xFA, 0xAF] ∨
        (bs.take 2 = [0xFD, 0xDF] ∧ ∃ id flags addr len count payload,
          i = .response id flags addr len count payload))

theorem xsum_append (a b : List Byte) : xsum (a ++ b) = xsum a ^^^ xsum b := by
  induction a with
  | nil => simp [xsum]
  | cons x a ih => simp [xsum, ih, BitVec.xor_assoc]

/-- The bytes after a header sum to zero: the checksum closes them. -/
theorem xsum_frameBody (id flags addr len count : Byte) (payload : List Byte) :
    xsum (frameBody id flags addr len count payload) = 0 := by
  simp only [frameBody]
  rw [xsum_append]
  simp [xsum]

/-- Every request frame has the form. -/
theorem request_form {id flags addr len count : Byte} {payload bs : List Byte}
    (h : some (encodeFrame id flags addr len count payload) = some bs) :
    8 ≤ bs.length ∧ xsum (bs.drop 2) = 0 ∧ bs.take 2 = [0xFA, 0xAF] := by
  obtain rfl := Option.some.inj h
  refine ⟨by simp [encodeFrame, frameBody], ?_, rfl⟩
  exact xsum_frameBody id flags addr len count payload

/-- A request frame is enough. -/
theorem of_request {i : Instr}
    (h : ∀ p, ∃ id flags addr len count payload,
      encode p i = some (encodeFrame id flags addr len count payload)) : Statement i := by
  intro p bs hb
  obtain ⟨_, _, _, _, _, _, he⟩ := h p
  obtain ⟨h1, h2, h3⟩ := request_form (he ▸ hb)
  exact ⟨h1, h2, .inl h3⟩

/-- An instruction with no frame has nothing to show. -/
theorem of_none {i : Instr} (h : ∀ p, encode p i = none) : Statement i := by
  intro p bs hb
  rw [h p] at hb
  cases hb

theorem romcommit (id : Byte) : Statement (.romcommit id) :=
  of_request fun _ => ⟨_, _, _, _, _, _, rfl⟩

theorem reboot (id : Byte) : Statement (.reboot id) :=
  of_request fun _ => ⟨_, _, _, _, _, _, rfl⟩

theorem freset (id : Byte) : Statement (.freset id) :=
  of_request fun _ => ⟨_, _, _, _, _, _, rfl⟩

theorem setid (id newid : Byte) : Statement (.setid id newid) :=
  of_request fun _ => ⟨_, _, _, _, _, _, rfl⟩

theorem setrev (id r : Byte) : Statement (.setrev id r) :=
  of_request fun _ => ⟨_, _, _, _, _, _, rfl⟩

theorem setbaud (id idx : Byte) : Statement (.setbaud id idx) :=
  of_request fun _ => ⟨_, _, _, _, _, _, rfl⟩

theorem setdelay (id c : Byte) : Statement (.setdelay id c) :=
  of_request fun _ => ⟨_, _, _, _, _, _, rfl⟩

theorem torque (id en : Byte) : Statement (.torque id en) :=
  of_request fun _ => ⟨_, _, _, _, _, _, rfl⟩

theorem move (id : Byte) (angle : Int) (time : Half) : Statement (.move id angle time) :=
  of_request fun _ => ⟨_, _, _, _, _, _, rfl⟩

theorem rdstat (id : Byte) : Statement (.rdstat id) :=
  of_request fun _ => ⟨_, _, _, _, _, _, rfl⟩

theorem rdangle (id : Byte) : Statement (.rdangle id) :=
  of_request fun _ => ⟨_, _, _, _, _, _, rfl⟩

theorem write (id addr len : Byte) (data : List Byte) : Statement (.write id addr len data) :=
  of_request fun _ => ⟨_, _, _, _, _, _, rfl⟩

theorem read (id addr len : Byte) : Statement (.read id addr len) :=
  of_request fun _ => ⟨_, _, _, _, _, _, rfl⟩

theorem response (id flags addr len count : Byte) (payload : List Byte) :
    Statement (.response id flags addr len count payload) := by
  intro p bs hb
  obtain rfl := Option.some.inj hb
  refine ⟨by simp [responseFrame, frameBody], ?_, .inr ⟨rfl, _, _, _, _, _, _, rfl⟩⟩
  exact xsum_frameBody id flags addr len count payload

theorem xsum (bs : List Byte) : Statement (.xsum bs) := of_none fun _ => rfl

theorem encode (id flags addr len count : Byte) (payload : List Byte) :
    Statement (.encode id flags addr len count payload) := of_none fun _ => rfl

theorem decode (body : List Byte) : Statement (.decode body) := of_none fun _ => rfl

theorem reopen (b : BaudIdx) : Statement (.reopen b) := of_none fun _ => rfl

theorem send (pkt : List Byte) : Statement (.send pkt) := of_none fun _ => rfl

theorem receive (len : Byte) : Statement (.receive len) := of_none fun _ => rfl

theorem wait (ms : Nat) : Statement (.wait ms) := of_none fun _ => rfl

theorem persist (id : Byte) : Statement (.persist id) := of_none fun _ => rfl

theorem sweep (target : BaudIdx) : Statement (.sweep target) := of_none fun _ => rfl

theorem session (c : Intent) : Statement (.session c) := of_none fun _ => rfl

end Sys2Proof.Laws.FrameForm
end

