-- ==== Sys2Proof/Tests/Slice0.lean ====
section
/-! SUPPORT. Tests: ill-formed terms the check refuses, words of every encoding, one or two steps of
every instruction, and for every obligation with hypotheses a state and operands that meet them. Expected
values come from spec/ (the rule or vector is named). -/

namespace Sys2Proof.Tests

open Sys2Proof Sys2Proof.Machine

/-! ### Helpers -/

/-- The next state of an outcome, if there is one. -/
def after : Host.Outcome State Fault Refusal → Option State
  | .next s => some s
  | .fault _ => none
  | .refused _ => none

/-- The fault of an outcome, if it is one. -/
def faultOf : Host.Outcome State Fault Refusal → Option Fault
  | .next _ => none
  | .fault r => some r
  | .refused _ => none

/-- The Ready state of 95_test_vectors.md. -/
def ready : State :=
  { State.reset with
    phase := .ready
    opn := true
    curBaud := 7
    intent := ⟨7, false, 0, 2, 128, false, false⟩
    doneMask := 0b0100000 }

/-- The Ready state with a command of one micro-operation in progress. -/
def running (u : UOp) : State := { ready with phase := .cmd, prog := [(.done, u)] }

/-- Inside the `uRECV(4)` of a direct read, with the bytes staged and the bytes queued. -/
def receiving (lst : LinkState) (staged queued : List Byte) : State :=
  { running (.urecv 4) with
    prog := [(.done, .urecv 4), (.done, .urdlatch)]
    lst := lst
    rxn := 10
    rxi := staged.length
    rxdl := .running
    rxbuf := staged
    rxFifo := queued }

/-- The intent of D0's session scenario (44_session.md R248). -/
def scenario : Intent := ⟨0x0B, false, 5, 1, 10, false, false⟩

/-- An intent of the least session (44_session.md R246). -/
def leastIntent : Intent := ⟨7, false, 0, 2, 128, false, false⟩

/-- The ROMCOMMIT frame of 42_commands.md R184's example. -/
def commit255 : List Byte := [0xFA, 0xAF, 0xFF, 0x40, 0xFF, 0x00, 0x00, 0x40]

/-- The body of 40_codec.md R133's example. -/
def body5 : List Byte := [0x05, 0x00, 0x04, 0x04, 0x01, 0x05, 0x01, 0x0B, 0x0A, 0x01]

/-! ### Well-formedness: each check refuses an ill-formed term -/

theorem test_wf_refuses_id_zero :
    (Instr.romcommit 0).wf Params.default = false := by decide

theorem test_wf_refuses_id_reserved_low :
    (Instr.reboot 128).wf Params.default = false := by decide

theorem test_wf_refuses_id_reserved_high :
    (Instr.persist 254).wf Params.default = false := by decide

theorem test_wf_refuses_newid_zero :
    (Instr.setid 255 0).wf Params.default = false := by decide

theorem test_wf_refuses_newid_high :
    (Instr.setid 255 128).wf Params.default = false := by decide

theorem test_wf_refuses_rotation :
    (Instr.setrev 255 2).wf Params.default = false := by decide

theorem test_wf_refuses_baud_index :
    (Instr.setbaud 255 12).wf Params.default = false := by decide

theorem test_wf_refuses_delay_code :
    (Instr.setdelay 255 128).wf Params.default = false := by decide

theorem test_wf_refuses_torque :
    (Instr.torque 255 2).wf Params.default = false := by decide

theorem test_wf_refuses_angle_low :
    (Instr.move 1 (-32769) 0).wf Params.default = false := by decide

theorem test_wf_refuses_angle_high :
    (Instr.move 1 32768 0).wf Params.default = false := by decide

theorem test_wf_refuses_data_length :
    (Instr.write 1 0x10 2 [0xAA]).wf Params.default = false := by decide

theorem test_wf_refuses_response_payload :
    (Instr.response 1 0 0 0 0 (List.replicate 256 0)).wf Params.default = false := by
  rw [Instr.wf, List.length_replicate]; decide

theorem test_wf_refuses_packet_short :
    (Instr.send [0xFA]).wf Params.default = false := by decide

theorem test_wf_refuses_wait_window :
    (Instr.wait 5).wf Params.default = false := by decide

theorem test_wf_refuses_intent_baud :
    (Instr.session ⟨12, false, 0, 0, 0, false, false⟩).wf Params.default = false := by decide

theorem test_wf_refuses_intent_newid :
    (Instr.session ⟨0, false, 128, 0, 0, false, false⟩).wf Params.default = false := by decide

theorem test_wf_accepts_boundaries :
    (Instr.setid 127 1).wf Params.default = true ∧ (Instr.setid 255 127).wf Params.default = true ∧
    (Instr.setdelay 1 127).wf Params.default = true ∧
    (Instr.move 1 (-32768) 0xFFFF).wf Params.default = true ∧
    (Instr.wait 1000).wf Params.default = true ∧ (Instr.session scenario).wf Params.default = true := by
  decide

/-! ### Decoding: frames written out from the spec's encodings -/

/-- 42_commands.md R184 -/
theorem test_decode_romcommit : decode Params.default [0xFA, 0xAF, 0xFF, 0x40, 0xFF, 0x00, 0x00, 0x40] =
    .ok (.romcommit 255) := by decide

/-- R185 -/
theorem test_decode_reboot : decode Params.default [0xFA, 0xAF, 0xFF, 0x20, 0xFF, 0x00, 0x00, 0x20] =
    .ok (.reboot 255) := by decide

/-- R186 -/
theorem test_decode_freset : decode Params.default [0xFA, 0xAF, 0xFF, 0x10, 0xFF, 0xFF, 0x00, 0xEF] =
    .ok (.freset 255) := by decide

/-- R187 -/
theorem test_decode_setid : decode Params.default [0xFA, 0xAF, 0xFF, 0x00, 0x04, 0x01, 0x01, 0x05, 0xFE] =
    .ok (.setid 255 5) := by decide

/-- R188 -/
theorem test_decode_setrev : decode Params.default [0xFA, 0xAF, 0xFF, 0x00, 0x05, 0x01, 0x01, 0x01, 0xFB] =
    .ok (.setrev 255 1) := by decide

/-- R189 -/
theorem test_decode_setbaud : decode Params.default [0xFA, 0xAF, 0xFF, 0x00, 0x06, 0x01, 0x01, 0x0B, 0xF2] =
    .ok (.setbaud 255 11) := by decide

/-- R190 -/
theorem test_decode_setdelay : decode Params.default [0xFA, 0xAF, 0xFF, 0x00, 0x07, 0x01, 0x01, 0x12, 0xEA] =
    .ok (.setdelay 255 18) := by decide

/-- R191 -/
theorem test_decode_torque : decode Params.default [0xFA, 0xAF, 0xFF, 0x00, 0x24, 0x01, 0x01, 0x01, 0xDA] =
    .ok (.torque 255 1) := by decide

/-- R192 -/
theorem test_decode_move : decode Params.default [0xFA, 0xAF, 0x01, 0x00, 0x1E, 0x04, 0x01, 0xA8, 0xFD, 0x64, 0x00, 0x2B] =
    .ok (.move 1 (-600) 100) := by decide

/-- R193 -/
theorem test_decode_rdstat : decode Params.default [0xFA, 0xAF, 0xFF, 0x0F, 0x04, 0x04, 0x00, 0xF0] =
    .ok (.rdstat 255) := by decide

/-- R194 -/
theorem test_decode_rdangle : decode Params.default [0xFA, 0xAF, 0x01, 0x0F, 0x2A, 0x02, 0x00, 0x26] =
    .ok (.rdangle 1) := by decide

/-- R182 -/
theorem test_decode_write : decode Params.default [0xFA, 0xAF, 0x01, 0x00, 0x1E, 0x02, 0x01, 0xA8, 0xFD, 0x49] =
    .ok (.write 1 0x1E 2 [0xA8, 0xFD]) := by decide

/-- 41_link.md R161 -/
theorem test_decode_read : decode Params.default [0xFA, 0xAF, 0x01, 0x0F, 0xFD, 0xDF, 0x00, 0x2C] =
    .ok (.read 1 0xFD 0xDF) := by decide

/-- R193 -/
theorem test_decode_response : decode Params.default [0xFD, 0xDF, 0x05, 0x00, 0x04, 0x04, 0x01, 0x05, 0x01, 0x0B, 0x0A, 0x01] =
    .ok (.response 5 0 4 4 1 [0x05, 0x01, 0x0B, 0x0A]) := by decide

/-- 30_encoding.md R101: `T = 8 + Length * Count`. -/
theorem test_decode_refuses_length :
    decode Params.default [0xFA, 0xAF, 0x01, 0x00, 0x10, 0x02, 0x01, 0xAA, 0xB8] =
      .error .badLength := by decide

/-- 30_encoding.md R114: no row of R111 has `Flags = 0x01`. -/
theorem test_decode_refuses_reserved :
    decode Params.default [0xFA, 0xAF, 0x01, 0x01, 0x10, 0x00, 0x00, 0x10] =
      .error .reserved := by decide

/-- 30_encoding.md R90, R91: no other header. -/
theorem test_decode_refuses_header :
    decode Params.default [0xFA, 0xDF, 0x01, 0x00, 0x00, 0x00, 0x00, 0x01] =
      .error .badHeader := by decide

/-- spec/opcode_table.json's `match` of SETID with ID 255 and of RDANGLE with ID 1 (log 16). -/
theorem test_table_words :
    decodeTableWord 56 0xFAAFFF00040101 = some (.setid 255 0) ∧
    decodeTableWord 56 0xFAAF010F2A0200 = some (.rdangle 1) ∧
    decodeTableWord 56 0xFAAF0010FFFF00 = some (.freset 0) ∧
    decodeTableWord 56 0xFDDF0000000000 = some (.response 0 0 0 0 0 []) ∧
    decodeTableWord 56 0xFAAF0001000000 = none := by decide

/-- A table word placed at reset is run by the next step: the command is refused `NotReady`
(42_commands.md R180). -/
theorem test_table_word_runs :
    (after (step (State.reset.withFetchWord 56 0xFAAFFF00040101))).map (·.lasterr) =
      some ⟨5, 1⟩ := by decide

/-! ### Instructions -/

/-- 95_test_vectors.md CV5 -/
theorem test_romcommit_program : (after (exec (.romcommit 1) ready)).map (fun s => (s.phase, s.prog.map Prod.snd)) =
    some (.cmd, [.usend [0xFA, 0xAF, 0x01, 0x40, 0xFF, 0x00, 0x00, 0xBE], .uwait 100]) := by decide

/-- 95_test_vectors.md CV7 -/
theorem test_reboot_program : (after (exec (.reboot 1) ready)).map (fun s => (s.phase, s.prog.map Prod.snd)) =
    some (.cmd, [.usend [0xFA, 0xAF, 0x01, 0x20, 0xFF, 0x00, 0x00, 0xDE], .uwait 1000]) := by decide

/-- 95_test_vectors.md CV9 -/
theorem test_freset_program : (after (exec (.freset 1) ready)).map (fun s => (s.phase, s.prog.map Prod.snd)) =
    some (.cmd, [.usend [0xFA, 0xAF, 0x01, 0x10, 0xFF, 0xFF, 0x00, 0x11]]) := by decide

/-- 95_test_vectors.md CV11 -/
theorem test_setid_program : (after (exec (.setid 1 127) ready)).map (fun s => (s.phase, s.prog.map Prod.snd)) =
    some (.cmd, [.usend [0xFA, 0xAF, 0x01, 0x00, 0x04, 0x01, 0x01, 0x7F, 0x7A]]) := by decide

/-- 95_test_vectors.md CV14 -/
theorem test_setrev_program : (after (exec (.setrev 255 0) ready)).map (fun s => (s.phase, s.prog.map Prod.snd)) =
    some (.cmd, [.usend [0xFA, 0xAF, 0xFF, 0x00, 0x05, 0x01, 0x01, 0x00, 0xFA]]) := by decide

/-- 95_test_vectors.md CV15 -/
theorem test_setbaud_program : (after (exec (.setbaud 255 0) ready)).map (fun s => (s.phase, s.prog.map Prod.snd)) =
    some (.cmd, [.usend [0xFA, 0xAF, 0xFF, 0x00, 0x06, 0x01, 0x01, 0x00, 0xF9]]) := by decide

/-- 42_commands.md R190 -/
theorem test_setdelay_program : (after (exec (.setdelay 255 10) ready)).map (fun s => (s.phase, s.prog.map Prod.snd)) =
    some (.cmd, [.usend [0xFA, 0xAF, 0xFF, 0x00, 0x07, 0x01, 0x01, 0x0A, 0xF2]]) := by decide

/-- 42_commands.md R191 -/
theorem test_torque_program : (after (exec (.torque 255 0) ready)).map (fun s => (s.phase, s.prog.map Prod.snd)) =
    some (.cmd, [.usend [0xFA, 0xAF, 0xFF, 0x00, 0x24, 0x01, 0x01, 0x00, 0xDB]]) := by decide

/-- 42_commands.md R192 -/
theorem test_move_program : (after (exec (.move 1 600 0) ready)).map (fun s => (s.phase, s.prog.map Prod.snd)) =
    some (.cmd, [.usend [0xFA, 0xAF, 0x01, 0x00, 0x1E, 0x04, 0x01, 0x58, 0x02, 0x00, 0x00, 0x40]]) := by decide

/-- 42_commands.md R193, R181 -/
theorem test_rdstat_program : (after (exec (.rdstat 255) ready)).map (fun s => (s.phase, s.prog.map Prod.snd)) =
    some (.cmd, [.usend [0xFA, 0xAF, 0xFF, 0x0F, 0x04, 0x04, 0x00, 0xF0], .urecv 4, .urdlatch]) := by decide

/-- 42_commands.md R194, R181 -/
theorem test_rdangle_program : (after (exec (.rdangle 1) ready)).map (fun s => (s.phase, s.prog.map Prod.snd)) =
    some (.cmd, [.usend [0xFA, 0xAF, 0x01, 0x0F, 0x2A, 0x02, 0x00, 0x26], .urecv 2, .urdlatch]) := by decide

/-- 95_test_vectors.md CV3 -/
theorem test_write_program : (after (exec (.write 255 0xFE 3 [1, 2, 3]) ready)).map (fun s => (s.phase, s.prog.map Prod.snd)) =
    some (.cmd, [.usend [0xFA, 0xAF, 0xFF, 0x00, 0xFE, 0x03, 0x01, 0x01, 0x02, 0x03, 0x03]]) := by decide

/-- 41_link.md R161, 42_commands.md R181 -/
theorem test_read_program : (after (exec (.read 1 0xFD 0xDF) ready)).map (fun s => (s.phase, s.prog.map Prod.snd)) =
    some (.cmd, [.usend [0xFA, 0xAF, 0x01, 0x0F, 0xFD, 0xDF, 0x00, 0x2C], .urecv 0xDF, .urdlatch]) := by decide

/-- 42_commands.md R195 -/
theorem test_persist_program : (after (exec (.persist 255) ready)).map (fun s => (s.phase, s.prog.map Prod.snd)) =
    some (.cmd, [.usend [0xFA, 0xAF, 0xFF, 0x40, 0xFF, 0x00, 0x00, 0x40], .uwait 100,
      .usend [0xFA, 0xAF, 0xFF, 0x20, 0xFF, 0x00, 0x00, 0x20], .uwait 1000]) := by decide

/-- 42_commands.md R187: 0 is refused. -/
theorem test_setid_bad_operand : (after (exec (.setid 255 0) ready)).map (fun s => (s.err, s.lasterr, s.trace)) =
    some (0b1000, ⟨5, 3⟩, [.refuse 5]) := by decide

/-- 42_commands.md R188 -/
theorem test_setrev_bad_operand : (after (exec (.setrev 255 2) ready)).map (fun s => (s.err, s.lasterr, s.trace)) =
    some (0b1000, ⟨5, 3⟩, [.refuse 5]) := by decide

/-- 42_commands.md R189 -/
theorem test_setbaud_bad_operand : (after (exec (.setbaud 255 12) ready)).map (fun s => (s.err, s.lasterr, s.trace)) =
    some (0b1000, ⟨5, 3⟩, [.refuse 5]) := by decide

/-- 42_commands.md R190 -/
theorem test_setdelay_bad_operand : (after (exec (.setdelay 255 128) ready)).map (fun s => (s.err, s.lasterr, s.trace)) =
    some (0b1000, ⟨5, 3⟩, [.refuse 5]) := by decide

/-- 42_commands.md R191 -/
theorem test_torque_bad_operand : (after (exec (.torque 255 2) ready)).map (fun s => (s.err, s.lasterr, s.trace)) =
    some (0b1000, ⟨5, 3⟩, [.refuse 5]) := by decide

/-- 95_test_vectors.md F12, 42_commands.md R192 -/
theorem test_move_bad_operand : (after (exec (.move 1 32768 0) ready)).map (fun s => (s.err, s.lasterr, s.trace)) =
    some (0b1000, ⟨5, 3⟩, [.refuse 5]) := by decide

/-- 42_commands.md R180 -/
theorem test_write_length_mismatch : (after (exec (.write 1 0x10 2 [0xAA]) ready)).map (fun s => (s.err, s.lasterr, s.trace)) =
    some (0b1000, ⟨5, 4⟩, [.refuse 5]) := by decide

/-- 42_commands.md R180, R183 -/
theorem test_read_bad_id : (after (exec (.read 128 0x10 2) ready)).map (fun s => (s.err, s.lasterr, s.trace)) =
    some (0b1000, ⟨5, 2⟩, [.refuse 5]) := by decide

/-- 42_commands.md R180: NotReady is tested before BadID. -/
theorem test_romcommit_not_ready : (after (exec (.romcommit 0) State.reset)).map (fun s => (s.err, s.lasterr, s.trace)) =
    some (0b1000, ⟨5, 1⟩, [.refuse 5]) := by decide

/-- 95_test_vectors.md X4, X5 -/
theorem test_xsum : (after (exec (.xsum [0xFF, 0x00, 0x04, 0x01, 0x01, 0x05]) State.reset)).map
    (·.codecOut) = some (.checksum 0xFE) ∧ xsum [0x01, 0x02, 0x04, 0x08, 0x10, 0x20, 0x40, 0x80] = 0xFF := by decide

/-- 95_test_vectors.md E9: total, also when `encode_ok` fails. -/
theorem test_encode : (after (exec (.encode 1 0 0x1E 1 1 [0xAA, 0xBB]) State.reset)).map
    (·.codecOut) =
      some (.packet [0xFA, 0xAF, 0x01, 0x00, 0x1E, 0x01, 0x01, 0xAA, 0xBB, 0x0E]) := by decide

/-- 40_codec.md R133's first example -/
theorem test_decode_body : (after (exec (.decode body5) State.reset)).map (·.codecOut) =
    some (.decoded (.ok ⟨5, 0, 4, 4, 1, [0x05, 0x01, 0x0B, 0x0A]⟩)) := by decide

/-- 40_codec.md R133's second example, and fewer than six bytes -/
theorem test_decode_body_errors :
    decodeBody [0x05, 0x00, 0x04, 0x04, 0x01, 0x05, 0x01, 0x0B, 0x0A, 0x00] = .checksumMismatch ∧
    decodeBody [0x01, 0x02, 0x03, 0x04, 0x05] = .malformed := by decide

/-- 42_commands.md R193's response -/
theorem test_response : (after (exec (.response 5 0 4 4 1 [0x05, 0x01, 0x0B, 0x0A]) ready)).map
    (·.rxFifo) = some (0xFD :: 0xDF :: body5) := by decide

/-- 41_link.md R150's example -/
theorem test_reopen : (after (exec (.reopen 7) { ready with curBaud := 11 })).map
    (fun s => (s.trace, s.opn, s.curBaud)) = some ([.closed, .opened 7], true, 7) := by decide

/-- 41_link.md R150: the first `uOPEN` after `Reset` emits only `Open(i)`. -/
theorem test_reopen_first : (after (exec (.reopen 0) State.reset)).map
    (fun s => (s.trace, s.opn, s.curBaud)) = some ([.opened 0], true, 0) := by decide

/-- 41_link.md R151, R164 -/
theorem test_send : (after (exec (.send commit255) (running (.usend commit255)))).map
    (fun s => (s.trace, s.dir, s.lst, s.txn, s.txi)) = some ([.dir .tx], .tx, .tx, 8, 0) := by decide

/-- 41_link.md R151: `OPEN = 1` is a precondition (log 10). -/
theorem test_send_closed : faultOf (exec (.send commit255) State.reset) = some .transportClosed := by
  decide

/-- 41_link.md R155: `RXN = 5 + L + 1`. -/
theorem test_receive : (after (exec (.receive 4) (running (.urecv 4)))).map
    (fun s => (s.rxn, s.rxres, s.lst, s.rxdl)) = some (10, .none, .hunt1, .running) := by decide

/-- 41_link.md R156: `L_HUNT2, 0xFD -> L_HUNT2`. -/
theorem test_receive_hunt : (after (step (receiving .hunt2 [] [0xFD, 0xDF]))).map
    (fun s => (s.lst, s.rxFifo)) = some (.hunt2, [0xDF]) := by decide

/-- 95_test_vectors.md K7 -/
theorem test_wait : (after (exec (.wait 100) (running (.uwait 100)))).map (·.trace) =
    some [.delay 100] := by decide

/-- 43_sweep.md R221 -/
theorem test_sweep : (after (exec (.sweep 7)
      { State.reset with phase := .session, prog := [(.baudOpen, .uopen 7)] })).map
    (fun s => (s.prog.length, s.prog[1]?)) =
      some (73, some (.recoverySweep,
        .usend [0xFA, 0xAF, 0xFF, 0x00, 0x06, 0x01, 0x01, 0x07, 0xFE])) := by decide

/-- 44_session.md R248: 17 micro-operations, the first `uOPEN(11)`. -/
theorem test_session : (after (exec (.session scenario) State.reset)).map
    (fun s => (s.phase, s.prog.length, s.prog[0]?, s.baud)) =
      some (.session, 17, some (.baudOpen, .uopen 11), 11) := by decide

/-- 44_session.md R230: `BadBaud` is tested before `BadNewID`. -/
theorem test_session_refused : (after (exec (.session ⟨12, false, 128, 0, 0, false, false⟩)
      State.reset)).map (fun s => (s.err, s.lasterr, s.phase, s.trace)) =
    some (0b0100, ⟨4, 1⟩, .idle, [.refuse 4]) := by decide

/-! ### Witnesses: states and operands that meet the hypotheses of the obligations, each clause at a
boundary of its range -/

/-- A session with one packet, before it begins. -/
def session1 (c : Intent) (rest : List Input) : State :=
  { State.reset with inbox := .start c :: rest }

/-- Inside the `uSEND` of ROMCOMMIT, `TXI = i`. -/
def sending (lst : LinkState) (i : Nat) : State :=
  { running (.usend commit255) with
    dir := .tx
    lst := lst
    txbuf := commit255
    txn := 8
    txi := i }

/-- A run's state, if it goes through. -/
def runs (k : Nat) (s : State) : Option State := after (Host.Core.run core k s)

theorem test_witness_XsumIsBytewiseXor : [(1 : Byte), 2, 3].Perm [3, 1, 2] := by decide

theorem test_witness_DecodeChecksAndSplits :
    ([1, 2, 3, 4, 5] : List Byte).length < 6 ∧ 6 ≤ ([1, 2, 3, 4, 5, 1] : List Byte).length ∧
    decodeBody [1, 2, 3, 4, 5, 1] = .ok ⟨1, 2, 3, 4, 5, []⟩ ∧
    decodeBody [1, 2, 3, 4, 5, 0] = .checksumMismatch := by decide

theorem test_witness_CorruptionDetection :
    decodeBody body5 = .ok ⟨5, 0, 4, 4, 1, [0x05, 0x01, 0x0B, 0x0A]⟩ ∧
    body5[0]? = some 0x05 ∧ body5[9]? = some 0x01 ∧
    decodeBody (body5.set 9 (0x01 ^^^ BitVec.twoPow 8 7)) = .checksumMismatch ∧
    decodeBody ((body5.set 9 (0x01 ^^^ BitVec.twoPow 8 7)).set 0 (0x05 ^^^ BitVec.twoPow 8 7)) =
      .ok ⟨0x85, 0, 4, 4, 1, [0x05, 0x01, 0x0B, 0x0A]⟩ := by decide

theorem test_witness_ProgramFramesAreWellFormed :
    (Instr.persist 255).isCommand = true ∧
    ((∃ t, exec (.persist 255) ready = .next t ∧ t.prog ≠ ready.prog ∧
        (Seq.done, UOp.usend commit255) ∈ t.prog) ∧
      ∃ t, exec (.session leastIntent) State.reset = .next t ∧ t.prog ≠ State.reset.prog ∧
        (Seq.torqueEnable,
          UOp.usend [0xFA, 0xAF, 0xFF, 0x00, 0x24, 0x01, 0x01, 0x01, 0xDA]) ∈ t.prog) :=
  ⟨rfl, ⟨_, rfl, by decide⟩, ⟨_, rfl, by decide⟩⟩

theorem test_witness_DecodeOfEncodedInstruction :
    (Instr.move 127 (-32768) 0xFFFF).wf Params.default = true ∧
    (Instr.write 1 0x04 2 [1, 2]).wf Params.default = true ∧
    (Instr.write 1 0x04 2 [1, 2]).mostSpecific Params.default = true ∧
    (Instr.write 1 0x04 1 [5]).mostSpecific Params.default = false ∧
    encode Params.default (.write 1 0x04 2 [1, 2]) =
      some [0xFA, 0xAF, 0x01, 0x00, 0x04, 0x02, 0x01, 0x01, 0x02, 0x05] := by decide

theorem test_witness_DecodedFrames :
    decode Params.default commit255 = .ok (.romcommit 255) ∧
    tableRow Params.default (.romcommit 255) = some (0xFFFF00FFFFFFFF, 0xFAAF0040FF0000) := by decide

theorem test_witness_MovePayloadAndAngleReadback :
    movePayload (-32768) 0xFFFF = [0x00, 0x80, 0xFF, 0xFF] ∧ angleOf 0x00 0x80 = -32768 ∧
    movePayload 32767 0 = [0xFF, 0x7F, 0, 0] ∧ angleOf 0xFF 0x7F = 32767 := by decide

theorem test_witness_BaudTableAscends : (10 : BaudIdx) < 11 ∧ (0 : BaudIdx) < 1 := by decide

theorem test_witness_CommandsAccepted :
    ready.phase = .ready ∧ validId 1 = true ∧ validId 127 = true ∧ validId 255 = true ∧
    (1 ≤ (127 : Byte).toNat ∧ (127 : Byte).toNat ≤ 127) ∧ (1 : Byte).toNat ≤ 1 ∧
    (11 : Byte).toNat ≤ 11 ∧ (-32768 : Int) ≤ -32768 ∧ (32767 : Int) ≤ 32767 ∧
    ([] : List Byte).length = (0 : Byte).toNat ∧ ([1, 2, 3] : List Byte).length = (3 : Byte).toNat := by
  decide

theorem test_witness_WriteAccepted_longest :
    (List.replicate 255 (0xAA : Byte)).length = (255 : Byte).toNat := by
  rw [List.length_replicate]; rfl

theorem test_witness_CommandTestOrder :
    (Instr.setdelay 255 127).callTests = some (255, true, true) ∧
    (Instr.setdelay 0 128).callTests = some (0, false, true) ∧
    (Instr.write 1 0x10 2 [0xAA]).callTests = some (1, true, false) ∧
    State.reset.phase ≠ .ready ∧ ready.phase = .ready ∧ validId 0 = false ∧ validId 1 = true := by
  decide

theorem test_witness_RefusalLeavesRunningProgram :
    (sending .tx 3).busy = true ∧
    ({ sending .tx 3 with inbox := [.start scenario] }).inbox = .start scenario :: [] ∧
    ({ sending .tx 3 with inbox := [.cmd (.reboot 0)] }).inbox = .cmd (.reboot 0) :: [] ∧
    (Instr.reboot 0).isCommand = true := by decide

theorem test_witness_LinkBegins :
    (running (.urecv 4)).Between ∧ (running (.urecv 4)).opn = true ∧
    State.reset.Between ∧ State.reset.opn = false ∧ ¬ (sending .tx 3).Between := by decide

theorem test_witness_SendPutsFrameOnWire :
    (running (.usend commit255)).busy = true ∧
    (running (.usend commit255)).currentUop = some (.usend commit255) ∧
    ((runs 11 { running (.usend commit255) with
      inbox := List.replicate 10 .tick ++ [.drained] }).map fun s => (s.trace, s.phase)) =
      some (.dir .tx :: (commit255.map .tx ++ [.dir .rx]), .ready) ∧
    (ready.lst ≠ .drain) := by decide

theorem test_witness_UndrainedSendIsStuck :
    (sending .drain 8).lst = .drain ∧
    ({ sending .drain 8 with inbox := List.replicate 3 .tick }).inbox = List.replicate 3 .tick := by
  decide

/-- A line that answers every waiting SEND with `Drained` is fair, and so is one that answers every
waiting RECEIVE with `RxTimeout`. -/
theorem test_witness_FairLine :
    FairLine (fun _ => .drained) (sending .drain 8) ∧
    (∀ m, ∃ u, runUnder (fun _ => .drained) (sending .drain 8) m = .next u) ∧
    FairLine (fun _ => .rxTimeout) (receiving .hunt1 [] []) ∧
    (∀ m, ∃ u, runUnder (fun _ => .rxTimeout) (receiving .hunt1 [] []) m = .next u) := by
  have hd : ∀ n, runUnder (fun _ => .drained) (sending .drain 8) (n + 1) =
      .next (takeDrained (sending .drain 8)) := by
    intro n
    induction n with
    | zero => rfl
    | succ n ih => rw [runUnder, ih]; rfl
  have ht : ∀ n, runUnder (fun _ => .rxTimeout) (receiving .hunt1 [] []) (n + 1) =
      .next (takeTimeout (receiving .hunt1 [] [])) := by
    intro n
    induction n with
    | zero => rfl
    | succ n ih => rw [runUnder, ih]; rfl
  refine ⟨fun n t h => ⟨fun _ => ⟨n, le_rfl, rfl⟩, fun hr => ?_⟩, ?_,
    fun n t h => ⟨fun hl => ?_, fun _ => ⟨n, t, le_rfl, h, .inl rfl⟩⟩, ?_⟩
  · cases n with
    | zero => cases h; exact absurd hr (by simp [State.receiving, sending])
    | succ n => rw [hd] at h; cases h; exact absurd hr (by unfold State.receiving; decide)
  · exact fun m => m.casesOn ⟨_, rfl⟩ fun n => ⟨_, hd n⟩
  · cases n with
    | zero => cases h; exact absurd hl (by decide)
    | succ n => rw [ht] at h; cases h; exact absurd hl (by decide)
  · exact fun m => m.casesOn ⟨_, rfl⟩ fun n => ⟨_, ht n⟩

theorem test_witness_HeaderHuntTable :
    (receiving .hunt1 [] [0xFD]).rxFifo = 0xFD :: [] ∧
    (receiving .hunt2 [] [0xDF, 0x05]).rxFifo = 0xDF :: [0x05] ∧
    (0xFE : Byte) ≠ 0xFD ∧ (0xFE : Byte) ≠ 0xDF ∧
    (receiving .hunt1 [] [0xFD]).inbox = [] := by decide

theorem test_witness_StagingAndCheck :
    (let s := receiving .body (body5.take 8) [0x0A, 0x01]
     s.inbox = [] ∧ s.lst = .body ∧ s.rxi ≤ s.rxbuf.length ∧ s.rxi + 1 < s.rxn) ∧
    (let s := receiving .body (body5.take 9) [0x01]
     s.rxi + 1 = s.rxn ∧ decodeBody (s.rxbuf.take s.rxi ++ [0x01]) =
        .ok ⟨5, 0, 4, 4, 1, [0x05, 0x01, 0x0B, 0x0A]⟩ ∧
      decodeBody (s.rxbuf.take s.rxi ++ [0x00]) = .checksumMismatch) := by decide

theorem test_witness_TimeoutEndsReceive :
    ({ receiving .body [5] [] with inbox := [.rxTimeout] }).receiving ∧
    ({ receiving .hunt1 [] [] with inbox := [.rxTimeout] }).receiving :=
  ⟨.inr (.inr rfl), .inl rfl⟩

theorem test_witness_ValidResponseAccepted :
    (let s := receiving .hunt1 [] (0xFD :: 0xDF :: body5 ++ [0xFD])
     s.inbox = [] ∧ s.rxFifo = [0xFD, 0xDF] ++ body5 ++ [0xFD] ∧ body5.length = s.rxn) := by decide

theorem test_witness_WaitWindow :
    (running (.uwait 100)).Between ∧
    ({ running (.uwait 100) with timer := some 100 }).timer = some 100 ∧
    ({ running (.uwait 100) with timer := some 100 }).lst = .idle := by decide

theorem test_witness_TransmitBegins :
    ∃ t, step (running (.usend commit255)) = .next t ∧ (running (.usend commit255)).dir = .rx ∧
      t.dir = .tx := ⟨_, rfl, by decide⟩

theorem test_witness_MicroOperationCompletes :
    (running (.ubaud 3)).busy = true ∧ (running (.ubaud 3)).prog[0]? = some (.done, .ubaud 3) ∧
    (let s := { running (.ubaud 3) with
        phase := .session, prog := [(.setID, .ubaud 3), (.setID, .ubaud 4), (.done, .ubaud 5)] }
     s.busy = true ∧ s.prog[0 + 1]?.map Prod.fst = some .setID ∧
      ({ s with upc := 1 }).prog[1 + 1]?.map Prod.fst ≠ some .setID) := by decide

theorem test_witness_StepRunsMicroOperation :
    (running (.ubaud 3)).busy = true ∧ (running (.ubaud 3)).Between ∧
    (running (.ubaud 3)).currentUop = some (.ubaud 3) ∧
    (running (.urecv 255)).currentUop = some (.urecv 255) ∧ (running (.ubaud 3)).inbox = [] := by
  decide

theorem test_witness_StepRunsDecodedInstruction :
    ({ ready with inbox := [.frame commit255] }).inbox = .frame commit255 :: [] ∧
    decode ready.params commit255 = .ok (.romcommit 255) ∧
    (Instr.romcommit 255).isCommand = true := by decide

/-- 44_session.md R243 and 42_commands.md R181 on an accepted response of four payload bytes -/
theorem test_witness_Surface :
    (let s := { running .ureport with rxres := .ok, rxbuf := body5, rxn := 10 }
     s.busy = true ∧ s.Between ∧ s.currentUop = some .ureport ∧
      s.rxbuf = [5, 0, 4, 4, 1, 0x05, 0x01, 0x0B, 0x0A] ++ [0x01] ∧
      (after (step s)).map (fun t => (t.st.delayUs, t.doneMask)) = some (600, 0b1100000)) ∧
    (let s := { running .urdlatch with rxres := .ok, rxbuf := body5, rxn := 10 }
     s.currentUop = some .urdlatch ∧ s.rxn = 5 + [0x05, 0x01, 0x0B, 0x0A].length + 1 ∧
      (after (step s)).map (·.rd) =
        some ⟨true, 5, 0, 4, 4, 1, [0x05, 0x01, 0x0B, 0x0A]⟩) ∧
    (running .ureport).rxres ≠ .ok := by decide

theorem test_witness_SessionStart :
    State.reset.phase = .idle ∧ ready.phase ≠ .idle ∧
    (11 < (12 : Byte).toNat ∧ (11 : Byte).toNat ≤ 11) ∧
    (127 < (128 : Byte).toNat ∧ (127 : Byte).toNat ≤ 127) ∧ intentValid scenario = true := by decide

theorem test_witness_SweepExpandsInPlace :
    (let s := { State.reset with phase := .session, prog := [(.baudOpen, .uopen 7)] }
     s.phase = .session ∧ s.upc = 0 ∧ s.Between) ∧
    ¬ (ready.phase = .session ∧ ready.upc = 0 ∧ ready.Between) ∧
    intentValid { scenario with sweep := true } = true ∧
    ∃ t, exec (.session { scenario with sweep := false }) State.reset = .next t :=
  ⟨by decide, by decide, by decide, ⟨_, rfl⟩⟩

theorem test_witness_CommitsAreAlwaysPersisted :
    (sessionProgram Params.default scenario)[2]? = some (.setID, .usend (commitFrame 255)) := by decide

theorem test_witness_StraightProgramTrace :
    (let s := { running (.uwait 100) with inbox := [.tick, .tick] }
     s.busy = true ∧ s.Between ∧ s.remaining = [.uwait 100] ∧ s.opn = true ∧
      s.inbox = s.remaining.flatMap UOp.inputs ++ []) ∧
    (let s := { session1 leastIntent [] with
        phase := .session, prog := [(.baudOpen, .uopen 7)], inbox := [.tick] }
     s.busy = true ∧ s.remaining = .uopen 7 :: [] ∧ (∀ u ∈ s.remaining, u.straight = true) ∧
      s.inbox = s.remaining.flatMap UOp.inputs ++ []) := by decide

theorem test_witness_CommandsReachTheWire :
    (let s := { ready with inbox := .cmd (.persist 255) ::
        ([UOp.usend (commitFrame 255), .uwait 100, .usend (rebootFrame 255),
          .uwait 1000].flatMap UOp.inputs) }
     s.phase = .ready ∧ s.Between ∧ s.opn = true ∧ (Instr.persist 255).wf s.params = true) ∧
    (Instr.move 127 32767 0).wf ready.params = true := by decide

theorem test_witness_SessionRunsToDone :
    (let s := session1 leastIntent
        (((sessionProgram Params.default leastIntent).map Prod.snd).flatMap UOp.inputs)
     s.phase = .idle ∧ s.Between ∧ s.opn = false ∧ intentValid leastIntent = true ∧
      leastIntent.statusEn = false) := by decide

theorem test_witness_IntentConstantUntilReset :
    (∃ t, step (session1 scenario []) = .next t ∧ t.intent ≠ (session1 scenario []).intent) ∧
    ∃ t, step { ready with inbox := [.reset] } = .next t ∧ t.intent ≠ ready.intent :=
  ⟨⟨_, rfl, by decide⟩, ⟨_, rfl, by decide⟩⟩

theorem test_witness_LineNeverChangesProgram :
    (∃ t, step (receiving .hunt1 [] [0xFD]) = .next t) ∧
    (∃ t, step { sending .drain 8 with inbox := [.drained] } = .next t) ∧
    (∃ t, step { receiving .body [5] [] with inbox := [.rxTimeout] } = .next t) ∧
    ∃ t, step { ready with inbox := [.rx 0xFD] } = .next t :=
  ⟨⟨_, rfl⟩, ⟨_, rfl⟩, ⟨_, rfl⟩, ⟨_, rfl⟩⟩

theorem test_witness_PhaseTransitions :
    (∃ t, step (session1 scenario []) = .next t ∧ t.phase ≠ .idle) ∧
    (∃ t, step { ready with inbox := [.cmd (.reboot 255)] } = .next t ∧ t.phase ≠ .ready) ∧
    (∃ t, step (running (.ubaud 3)) = .next t ∧ t.phase ≠ .cmd) ∧
    (∃ t, step { running (.ubaud 3) with phase := .session } = .next t ∧ t.phase ≠ .session) ∧
    ∃ t, step { ready with inbox := [.reset] } = .next t ∧ t.phase ≠ .ready :=
  ⟨⟨_, rfl, by decide⟩, ⟨_, rfl, by decide⟩, ⟨_, rfl, by decide⟩, ⟨_, rfl, by decide⟩,
    ⟨_, rfl, by decide⟩⟩

/-- The invariant holds in the middle of a `uSEND` and in the middle of a `uRECV`, and both go on. -/
theorem test_witness_Inv_sending :
    Inv (sending .tx 3) ∧ (∃ t, step (sending .tx 3) = .next t) ∧
      ∀ rest, (sending .tx 3).inbox ≠ .reset :: rest := by
  refine ⟨?_, ⟨_, rfl⟩, by simp [sending, running, ready, State.reset]⟩
  constructor <;> simp [sending, running, ready, State.reset, State.busy, State.currentUop,
    State.sending, State.receiving, State.Between, commit255, intentValid, Params.legal,
    Params.default, responsesLatched]

theorem test_witness_Inv_receiving :
    Inv (receiving .body [5] [0x00]) ∧ (∃ t, step (receiving .body [5] [0x00]) = .next t) := by
  refine ⟨?_, ⟨_, rfl⟩⟩
  constructor <;> simp [receiving, running, ready, State.reset, State.busy, State.currentUop,
    State.sending, State.receiving, State.Between, intentValid, Params.legal, Params.default,
    responsesLatched]

theorem test_witness_ResetFromAnyState :
    ({ sending .tx 3 with inbox := [.reset, .tick] }).inbox = .reset :: [.tick] := by decide

end Sys2Proof.Tests
end

-- ==== Proofs of the family 10_state.md ====
section
/-! PROOFS. The registers of 10_state.md: the baud table (O14), `BUSY` (O56), `INTENT` (O51). -/

namespace Sys2Proof.Machine

/-! ### The baud table -/

/-- Each rate is below the next one in the table (10_state.md R30). -/
theorem baudRate_castSucc_lt_succ : ∀ i : Fin 11, baudRate i.castSucc < baudRate i.succ := by
  decide

theorem baudRate_strictMono : StrictMono baudRate :=
  Fin.strictMono_iff_lt_succ.2 baudRate_castSucc_lt_succ

/-- Settles O14: the table is read off, and its ascent follows from that of neighbouring rates. -/
theorem baudTableAscends : Obligations.BaudTableAscends :=
  ⟨rfl, fun _ _ h => baudRate_strictMono h⟩

/-! ### BUSY -/

theorem busy_iff (s : State) : s.busy = true ↔ s.phase = .session ∨ s.phase = .cmd := by
  simp [State.busy]

/-- Host register 9 is `BUSY` (10_state.md R44). -/
theorem hostRead_nine (s : State) : hostRead 9 s = some [flagValue s.busy] := rfl

/-- Settles O56: the host reads `BUSY`, and `BUSY` is a test of the phase. -/
theorem busyExactlyWhileRunning : Obligations.BusyExactlyWhileRunning := by
  intro s
  refine ⟨busy_iff s, ?_⟩
  simp only [hostRead_nine, flagValue, busy_iff]

/-! ### INTENT under the framer's own moves

The framer begins, continues and completes micro-operations without writing `INTENT`. -/

@[simp] theorem endReceive_intent (r : RxRes) (s : State) :
    (endReceive r s).intent = s.intent := by
  simp [endReceive]

@[simp] theorem checkBody_intent (s : State) : (checkBody s).intent = s.intent := by
  obtain ⟨_, _, h⟩ | ⟨_, h⟩ := checkBody_cases s <;> simp [h]

@[simp] theorem takeByte_intent (b : Byte) (s : State) : (takeByte b s).intent = s.intent := by
  unfold takeByte
  cases s.lst with
  | idle | tx | drain => rfl
  | hunt1 => dsimp only; split <;> rfl
  | hunt2 => dsimp only; split_ifs <;> rfl
  | body => dsimp only; split <;> simp

@[simp] theorem rxMove_intent (s : State) : (rxMove s).intent = s.intent := by
  unfold rxMove
  cases s.rxFifo <;> simp

@[simp] theorem txMove_intent (s : State) : (txMove s).intent = s.intent := by
  unfold txMove
  split <;> simp

@[simp] theorem timerMove_intent (s : State) : (timerMove s).intent = s.intent := by
  unfold timerMove
  cases s.timer <;> simp

@[simp] theorem engineMove_intent (s : State) : (engineMove s).intent = s.intent := by
  unfold engineMove
  cases s.lst <;> simp

@[simp] theorem runBaud_intent (i : BaudIdx) (s : State) : (runBaud i s).intent = s.intent := by
  simp [runBaud]

@[simp] theorem runReport_intent (s : State) : (runReport s).intent = s.intent := by
  unfold runReport
  split <;> simp

@[simp] theorem runRdlatch_intent (s : State) : (runRdlatch s).intent = s.intent := by
  unfold runRdlatch
  split <;> simp

theorem framerMove_intent {s t : State} (h : framerMove s = .next t) : t.intent = s.intent := by
  obtain ⟨i, _, he⟩ | ⟨pkt, _, he⟩ | ⟨len, _, he⟩ | ⟨ms, _, he⟩ | ⟨i, _, _, _, _, he⟩ |
    ⟨_, _, _, _, he⟩ | ⟨_, _, _, _, he⟩ | ⟨_, he⟩ := framerMove_cases s <;> rw [he] at h
  · obtain ⟨_, rfl⟩ := execReopen_next h; simp
  · obtain ⟨_, _, rfl⟩ := execSend_next h; simp
  · obtain ⟨_, rfl⟩ := execReceive_next h; simp
  · obtain ⟨_, rfl⟩ := execWait_next h; simp
  all_goals cases h; simp

/-! ### INTENT under the inputs -/

@[simp] theorem takeDrained_intent (s : State) : (takeDrained s).intent = s.intent := by
  obtain ⟨_, h⟩ | ⟨_, h⟩ := takeDrained_cases s <;> simp [h]

@[simp] theorem takeTimeout_intent (s : State) : (takeTimeout s).intent = s.intent := by
  obtain ⟨_, _, h⟩ | ⟨_, h⟩ := takeTimeout_cases s <;> simp [h]

/-- A `Cmd`, refused or accepted, leaves `INTENT` alone. -/
@[simp] theorem callCommand_intent (c : CmdCall) (s : State) :
    (callCommand c s).intent = s.intent := by
  obtain ⟨_, h⟩ | ⟨_, _, h⟩ | ⟨_, _, _, h⟩ | ⟨_, _, _, _, h⟩ | ⟨_, _, _, _, h⟩ :=
    callCommand_cases c s <;> simp [h]

theorem execResponse_intent {id flags addr len count : Byte} {payload : List Byte} {s t : State}
    (h : execResponse id flags addr len count payload s = .next t) : t.intent = s.intent := by
  cases h; rfl

/-- `Start` writes `INTENT` only where it is accepted: in `P_IDLE`, with a valid intent (44_session.md
R230). -/
theorem execSession_intent {c : Intent} {s t : State} (h : execSession c s = .next t) :
    t.intent = s.intent ∨ (s.phase = .idle ∧ intentValid c = true ∧ t.intent = c) := by
  obtain ⟨_, he⟩ | ⟨_, _, he⟩ | ⟨_, _, _, he⟩ | ⟨hp, hv, he⟩ := execSession_cases c s <;>
    rw [he] at h <;> cases h
  · exact .inl (refuseCall_intent _ _ s)
  · exact .inl (refuseCall_intent _ _ s)
  · exact .inl (refuseCall_intent _ _ s)
  · exact .inr ⟨hp, hv, acceptStart_intent c s⟩

/-- Settles O51, over the inputs a step can take: only `Reset` and an accepted `Start` write
`INTENT`. -/
theorem intentConstantUntilReset : Obligations.IntentConstantUntilReset := by
  intro s t hstep hne
  obtain ⟨_, h⟩ | ⟨_, _, h⟩ | ⟨rest, hi, _⟩ | ⟨c, rest, hi, h⟩ | ⟨_, _, _, _, _, _, _, _, rfl⟩ |
    ⟨_, _, _, _, _, _, _, _, _, h⟩ | ⟨_, _, rfl⟩ | ⟨_, _, _, rfl⟩ | ⟨_, _, rfl⟩ := step_cases hstep
  · exact absurd (framerMove_intent h) hne
  · exact absurd (framerMove_intent h) hne
  · exact .inl ⟨rest, hi⟩
  · obtain hkeep | ⟨hp, hv, hc⟩ := execSession_intent h
    · exact absurd hkeep hne
    · exact .inr ⟨hp, c, rest, hi, hv, hc⟩
  · exact absurd (callCommand_intent _ _) hne
  · exact absurd (execResponse_intent h) hne
  · exact absurd (takeDrained_intent _) hne
  · exact absurd (receiveWireByte_intent _ _) hne
  · exact absurd (takeTimeout_intent _) hne

end Sys2Proof.Machine
end

-- ==== Proofs of the family 42_commands.md ====
section
/-! PROOFS. The commands of 42_commands.md: the valid IDs (O21). -/

namespace Sys2Proof.Machine

/-! ### Valid IDs -/

theorem eq_broadcastId_iff_toNat (id : Byte) : id = broadcastId ↔ id.toNat = 255 :=
  BitVec.toNat_inj.symm

theorem validId_iff_address_or_broadcast (id : Byte) :
    validId id = true ↔ (1 ≤ id.toNat ∧ id.toNat ≤ 127) ∨ id = broadcastId := by
  simp only [validId, Bool.or_eq_true, Bool.and_eq_true, decide_eq_true_eq, beq_iff_eq]

/-- Settles O21: a valid ID is a servo's address or the broadcast address, and the latter is the byte
255. -/
theorem validIdRange : Obligations.ValidIdRange := by
  intro id
  rw [validId_iff_address_or_broadcast, eq_broadcastId_iff_toNat]

end Sys2Proof.Machine
end

-- ==== Proofs of the family 43_sweep.md ====
section
/-! PROOFS. The sweep of 43_sweep.md: its program (O45). -/

namespace Sys2Proof.Machine

/-! ### The frames of a cycle

Broadcast frames in bytes; only the baud write's checksum depends on the target. -/

theorem xsum_baudWrite_broadcast (v : Byte) :
    xsum [broadcastId, fWrite, aBaud, 1, 1, v] = 0xF9 ^^^ v := by
  have fixedBytes : broadcastId ^^^ fWrite ^^^ aBaud ^^^ 1 ^^^ 1 = 0xF9 := by decide
  simp only [xsum, ← BitVec.xor_assoc, fixedBytes]
  exact BitVec.xor_zero

theorem writeFrame_baud_broadcast (v : Byte) :
    writeFrame broadcastId aBaud 1 [v] =
      [0xFA, 0xAF, 0xFF, 0x00, 0x06, 0x01, 0x01, v, 0xF9 ^^^ v] := by
  rw [← xsum_baudWrite_broadcast v]
  rfl

theorem commitFrame_broadcast :
    commitFrame broadcastId = [0xFA, 0xAF, 0xFF, 0x40, 0xFF, 0x00, 0x00, 0x40] := by decide

theorem rebootFrame_broadcast :
    rebootFrame broadcastId = [0xFA, 0xAF, 0xFF, 0x20, 0xFF, 0x00, 0x00, 0x20] := by decide

/-! ### One cycle -/

/-- The six micro-operations of a cycle by their frames: SETBAUD and PERSIST after the reopen. -/
theorem sweepCycle_eq (p : Params) (target i : BaudIdx) :
    sweepCycle p target i =
      [.uopen i, .usend (writeFrame broadcastId aBaud 1 [baudByte target]),
        .usend (commitFrame broadcastId), .uwait p.tCommitMs,
        .usend (rebootFrame broadcastId), .uwait p.tRebootMs] := rfl

@[simp] theorem length_sweepCycle (p : Params) (target i : BaudIdx) :
    (sweepCycle p target i).length = 6 := rfl

/-! ### The whole sweep -/

theorem baudIndices_eq_finRange : baudIndices = List.finRange 12 := by decide

@[simp] theorem length_tagged (t : Seq) (us : List UOp) : (tagged t us).length = us.length :=
  List.length_map _

theorem sweepProgram_eq_flatMap (p : Params) (target : BaudIdx) :
    sweepProgram p target =
      (List.finRange 12).flatMap fun i => tagged .recoverySweep (sweepCycle p target i) := by
  rw [← baudIndices_eq_finRange]
  exact List.map_flatMap

/-- Twelve cycles of six. -/
theorem length_sweepProgram (p : Params) (target : BaudIdx) :
    (sweepProgram p target).length = 72 := by
  simp [sweepProgram_eq_flatMap, List.length_flatMap]

/-- Settles O45: the program is its twelve cycles, and a cycle's frames are given in bytes. -/
theorem sweepProgramCycles : Obligations.SweepProgramCycles := by
  intro p target
  refine ⟨?_, length_sweepProgram p target⟩
  simp only [sweepProgram_eq_flatMap, sweepCycle_eq, writeFrame_baud_broadcast,
    commitFrame_broadcast, rebootFrame_broadcast]
  rfl

end Sys2Proof.Machine
end

-- ==== Proofs of the family 44_session.md ====
section
/-! PROOFS. The session of 44_session.md: `Start` (O41) and the session's program (O42). -/

namespace Sys2Proof.Machine

/-! ### Valid intents -/

theorem intentValid_iff (c : Intent) :
    intentValid c = true ↔ c.tbaud.toNat ≤ 11 ∧ c.newid.toNat ≤ 127 := by
  simp only [intentValid, Bool.and_eq_true, decide_eq_true_eq]

/-- A byte up to 11 is the baud index it names: nothing is reduced modulo twelve. -/
theorem val_baudIdxOf {b : Byte} (h : b.toNat ≤ 11) : (baudIdxOf b).val = b.toNat :=
  Nat.mod_eq_of_lt (Nat.lt_succ_of_le h)

/-! ### The program as a sequence of states -/

/-- A state that is absent contributes nothing to tag. -/
theorem tagged_ite_nil (t : Seq) (P : Prop) [Decidable P] (us : List UOp) :
    tagged t (if P then us else []) = if P then tagged t us else [] :=
  apply_ite (tagged t) P us []

theorem sessionProgram_eq_states (p : Params) (c : Intent) :
    sessionProgram p c =
      (if c.sweep then sweepProgram p (baudIdxOf c.tbaud) else []) ++
      tagged .baudOpen [.uopen (baudIdxOf c.tbaud)] ++
      (if c.reset then tagged .factoryReset (factoryResetOps p) else []) ++
      (if c.newid ≠ 0 then tagged .setID (persistedWrite p aId c.newid) else []) ++
      (if c.delay.toNat ≤ 127 then
        tagged .setReplyDelay (persistedWrite p aDelay c.delay) else []) ++
      (if c.rot.toNat ≤ 1 then tagged .setRotationSense (persistedWrite p aRev c.rot) else []) ++
      tagged .torqueEnable (writeProgram broadcastId aTorque 1 [1]) ++
      (if c.statusEn then tagged .statusReport (statusReportOps p) else []) := by
  simp only [sessionProgram, sessionTail, tagged_ite_nil, List.append_assoc]

/-! ### The micro-operations of a state, by their frames -/

theorem persistProgram_eq (p : Params) (id : Byte) :
    persistProgram p id =
      [.usend (commitFrame id), .uwait p.tCommitMs,
        .usend (rebootFrame id), .uwait p.tRebootMs] := rfl

theorem persistedWrite_eq_cons (p : Params) (addr v : Byte) :
    persistedWrite p addr v =
      .usend (writeFrame p.sessionId addr 1 [v]) :: persistProgram p p.sessionId := rfl

theorem factoryResetOps_eq_cons (p : Params) :
    factoryResetOps p =
      .usend (resetFrame p p.sessionId) :: persistProgram p p.sessionId ++
        [.ubaud 7, .uopen 7] := rfl

/-! ### The frames in bytes -/

theorem encodeFrame_eq_bytes (id flags addr len count : Byte) (payload : List Byte) :
    encodeFrame id flags addr len count payload =
      [0xFA, 0xAF, id, flags, addr, len, count] ++ payload ++
        [xsum ([id, flags, addr, len, count] ++ payload)] := rfl

theorem writeFrame_eq_bytes (id addr len : Byte) (data : List Byte) :
    writeFrame id addr len data =
      [0xFA, 0xAF, id, 0x00, addr, len, 0x01] ++ data ++
        [xsum ([id, 0x00, addr, len, 0x01] ++ data)] :=
  encodeFrame_eq_bytes ..

theorem readFrame_eq_bytes (id addr len : Byte) :
    readFrame id addr len =
      [0xFA, 0xAF, id, 0x0F, addr, len, 0x00] ++ [] ++
        [xsum ([id, 0x0F, addr, len, 0x00] ++ [])] :=
  encodeFrame_eq_bytes ..

theorem commitFrame_eq_bytes (id : Byte) :
    commitFrame id =
      [0xFA, 0xAF, id, 0x40, 0xFF, 0x00, 0x00] ++ [] ++
        [xsum ([id, 0x40, 0xFF, 0x00, 0x00] ++ [])] :=
  encodeFrame_eq_bytes ..

theorem rebootFrame_eq_bytes (id : Byte) :
    rebootFrame id =
      [0xFA, 0xAF, id, 0x20, 0xFF, 0x00, 0x00] ++ [] ++
        [xsum ([id, 0x20, 0xFF, 0x00, 0x00] ++ [])] :=
  encodeFrame_eq_bytes ..

theorem resetFrame_eq_bytes (p : Params) (id : Byte) :
    resetFrame p id =
      [0xFA, 0xAF, id, 0x10, 0xFF, p.resetLen, 0x00] ++ [] ++
        [xsum ([id, 0x10, 0xFF, p.resetLen, 0x00] ++ [])] :=
  encodeFrame_eq_bytes ..

/-- Settles O42: the program is its states in order, a state is its frames and windows, and a frame
is given in bytes. -/
theorem sessionProgramOrder : Obligations.SessionProgramOrder := by
  intro p c hvalid
  obtain ⟨hbaud, _⟩ := (intentValid_iff c).1 hvalid
  refine ⟨baudIdxOf c.tbaud, val_baudIdxOf hbaud, ?_⟩
  simp only [sessionProgram_eq_states, factoryResetOps_eq_cons, persistedWrite_eq_cons,
    persistProgram_eq, writeProgram, statusReportOps, resetFrame_eq_bytes, writeFrame_eq_bytes,
    readFrame_eq_bytes, commitFrame_eq_bytes, rebootFrame_eq_bytes]
  rfl

/-! ### Start

One equation per test of `Start`, in their order. -/

section
variable {c : Intent} {s : State}

theorem execSession_of_phase_ne_idle (h : s.phase ≠ .idle) :
    execSession c s = .next (refuseCall .configRefused 3 s) :=
  if_pos h

theorem execSession_of_tbaud_gt (hp : s.phase = .idle) (hb : 11 < c.tbaud.toNat) :
    execSession c s = .next (refuseCall .configRefused 1 s) :=
  (if_neg (not_not_intro hp)).trans (if_pos hb)

theorem execSession_of_newid_gt (hp : s.phase = .idle) (hb : c.tbaud.toNat ≤ 11)
    (hn : 127 < c.newid.toNat) : execSession c s = .next (refuseCall .configRefused 2 s) :=
  (if_neg (not_not_intro hp)).trans ((if_neg hb.not_gt).trans (if_pos hn))

theorem execSession_of_intentValid (hp : s.phase = .idle) (hv : intentValid c = true) :
    execSession c s = .next (acceptStart c s) := by
  obtain ⟨hb, hn⟩ := (intentValid_iff c).1 hv
  exact (if_neg (not_not_intro hp)).trans ((if_neg hb.not_gt).trans (if_neg hn.not_gt))

end

/-- ConfigRefused is flag bit 2 and code 4 (44_session.md R230). -/
theorem refuseCall_configRefused (info : Byte) (s : State) :
    refuseCall .configRefused info s = s.afterRefusal 0b0100 4 info := rfl

/-- `SESSION` is the host's `Start`. -/
theorem exec_session (c : Intent) (s : State) : exec (.session c) s = execSession c s := rfl

/-- Settles O41: one clause for each way `Start` can end. -/
theorem sessionStart : Obligations.SessionStart := by
  intro s c
  simp only [exec_session, ← refuseCall_configRefused]
  refine ⟨execSession_of_phase_ne_idle, execSession_of_tbaud_gt, execSession_of_newid_gt, ?_⟩
  intro hp hb hn
  exact ⟨baudIdxOf c.tbaud, val_baudIdxOf hb,
    execSession_of_intentValid hp ((intentValid_iff c).2 ⟨hb, hn⟩)⟩

end Sys2Proof.Machine
end

-- ==== Proofs of the family other ====
section
/-! PROOFS. The codec of 40_codec.md: XSUM (O1), ENCODE (O2), DECODE (O3), their round trip (O4),
corruption (O5). -/

namespace Sys2Proof.Machine

open Laws.FrameForm (xsum_append xsum_frameBody)

/-! ### XSUM -/

theorem xsum_singleton (b : Byte) : xsum [b] = b := BitVec.xor_zero

theorem xsum_concat (bs : List Byte) (b : Byte) : xsum (bs ++ [b]) = xsum bs ^^^ b := by
  rw [xsum_append, xsum_singleton]

theorem xsum_perm {bs cs : List Byte} (h : bs.Perm cs) : xsum bs = xsum cs := by
  induction h with
  | nil => rfl
  | cons b _ ih => simp only [xsum, ih]
  | swap a b l => simp only [xsum, ← BitVec.xor_assoc, BitVec.xor_comm a b]
  | trans _ _ ih₁ ih₂ => exact ih₁.trans ih₂

/-- The masks flipped between two lists of one length sum to the difference of their sums. -/
theorem xsum_zipWith_xor {bs cs : List Byte} (h : cs.length = bs.length) :
    xsum (List.zipWith (· ^^^ ·) bs cs) = xsum bs ^^^ xsum cs := by
  induction bs generalizing cs with
  | nil => simp [List.length_eq_zero_iff.1 h, xsum]
  | cons b bs ih =>
    obtain _ | ⟨c, cs⟩ := cs
    · cases h
    · simp only [List.zipWith_cons_cons, xsum, ih (Nat.succ.inj h)]
      ac_rfl

/-- Flipping the mask `m` in one byte flips it in the sum. -/
theorem xsum_set_xor {bs : List Byte} {k : Nat} {v : Byte} (m : Byte) (h : bs[k]? = some v) :
    xsum (bs.set k (v ^^^ m)) = xsum bs ^^^ m := by
  induction bs generalizing k with
  | nil => cases h
  | cons b bs ih =>
    cases k with
    | zero =>
      obtain rfl : b = v := Option.some.inj h
      simp only [List.set_cons_zero, xsum]
      ac_rfl
    | succ k => simp only [List.set_cons_succ, xsum, ih h, BitVec.xor_assoc]

/-- Settles O1: XSUM is the fold of exclusive-or, which is associative, commutative and its own
inverse. -/
theorem xsumIsBytewiseXor : Obligations.XsumIsBytewiseXor := by
  intro s bs cs b
  refine ⟨rfl, rfl, rfl, xsum_singleton b, ?_, xsum_append bs cs, xsum_perm, by decide⟩
  rw [xsum_concat]
  exact BitVec.xor_self

/-! ### ENCODE -/

theorem length_frameBody (id flags addr len count : Byte) (payload : List Byte) :
    (frameBody id flags addr len count payload).length = 6 + payload.length := by
  simp [frameBody]; omega

theorem length_encodeFrame (id flags addr len count : Byte) (payload : List Byte) :
    (encodeFrame id flags addr len count payload).length = 8 + payload.length := by
  simp [encodeFrame, length_frameBody]; omega

/-- Settles O2: the packet is `encodeFrame`'s, given in bytes. -/
theorem encodeBuildsRequestFrame : Obligations.EncodeBuildsRequestFrame := fun _ _ _ _ _ _ _ =>
  ⟨_, rfl, encodeFrame_eq_bytes .., length_encodeFrame ..⟩

/-! ### DECODE -/

/-- A body of at least six bytes is five bytes, a payload and a checksum byte. -/
theorem exists_fields_of_six_le {body : List Byte} (h : 6 ≤ body.length) :
    ∃ id flags addr len count payload cs,
      body = [id, flags, addr, len, count] ++ payload ++ [cs] := by
  match body, h with
  | id :: flags :: addr :: len :: count :: b :: rest, _ =>
    refine ⟨id, flags, addr, len, count, (b :: rest).dropLast, (b :: rest).getLast (by simp), ?_⟩
    rw [List.append_assoc, List.dropLast_append_getLast]
    rfl

theorem decodeBody_of_length_lt {body : List Byte} (h : body.length < 6) :
    decodeBody body = .malformed := by
  unfold decodeBody
  split
  · simp only [List.length_cons] at h
    omega
  · rfl

theorem decodeBody_concat (id flags addr len count cs : Byte) (payload : List Byte) :
    decodeBody ([id, flags, addr, len, count] ++ payload ++ [cs]) =
      if xsum ([id, flags, addr, len, count] ++ payload) = cs then
        .ok ⟨id, flags, addr, len, count, payload⟩
      else .checksumMismatch := by
  obtain ⟨b, rest, hb⟩ : ∃ b rest, payload ++ [cs] = b :: rest :=
    List.exists_cons_of_ne_nil (by simp)
  have hdrop : (b :: rest).dropLast = payload := by rw [← hb, List.dropLast_concat]
  have hlast : (b :: rest).getLastD 0 = cs := by rw [← hb]; simp
  rw [List.append_assoc, hb]
  simp only [List.cons_append, List.nil_append, decodeBody, hdrop, hlast]

theorem decodeBody_frameBody (id flags addr len count : Byte) (payload : List Byte) :
    decodeBody (frameBody id flags addr len count payload) =
      .ok ⟨id, flags, addr, len, count, payload⟩ :=
  (decodeBody_concat ..).trans (if_pos rfl)

/-- The bytes before the last sum to it exactly when all of them sum to zero. -/
theorem xsum_eq_iff_xsum_concat_eq_zero {bs : List Byte} {cs : Byte} :
    xsum bs = cs ↔ xsum (bs ++ [cs]) = 0 := by
  rw [xsum_concat]
  exact BitVec.xor_eq_zero_iff.symm

theorem decodeBody_of_xsum_eq_zero {body : List Byte} (h : 6 ≤ body.length) (hx : xsum body = 0) :
    ∃ f, decodeBody body = .ok f := by
  obtain ⟨_, _, _, _, _, _, _, rfl⟩ := exists_fields_of_six_le h
  exact ⟨_, (decodeBody_concat ..).trans (if_pos (xsum_eq_iff_xsum_concat_eq_zero.2 hx))⟩

theorem decodeBody_of_xsum_ne_zero {body : List Byte} (h : 6 ≤ body.length) (hx : xsum body ≠ 0) :
    decodeBody body = .checksumMismatch := by
  obtain ⟨_, _, _, _, _, _, _, rfl⟩ := exists_fields_of_six_le h
  exact (decodeBody_concat ..).trans (if_neg (hx ∘ xsum_eq_iff_xsum_concat_eq_zero.1))

theorem six_le_of_decodeBody_eq_ok {body : List Byte} {f : Fields} (h : decodeBody body = .ok f) :
    6 ≤ body.length :=
  Nat.le_of_not_lt fun hl => by simp [decodeBody_of_length_lt hl] at h

/-- The bodies DECODE accepts are those ENCODE builds. -/
theorem decodeBody_eq_ok_iff {body : List Byte} {f : Fields} :
    decodeBody body = .ok f ↔
      body = frameBody f.id f.flags f.addr f.len f.count f.payload := by
  refine ⟨fun h => ?_, fun h => h ▸ decodeBody_frameBody ..⟩
  obtain ⟨id, flags, addr, len, count, payload, cs, rfl⟩ :=
    exists_fields_of_six_le (six_le_of_decodeBody_eq_ok h)
  rw [decodeBody_concat] at h
  split at h
  · next hcs => cases h; cases hcs; rfl
  · cases h

/-- Settles O3, by splitting a body of at least six bytes into its fields. -/
theorem decodeChecksAndSplits : Obligations.DecodeChecksAndSplits := by
  intro s body
  refine ⟨rfl, decodeBody_of_length_lt, fun h => ?_⟩
  obtain ⟨id, flags, addr, len, count, payload, cs, rfl⟩ := exists_fields_of_six_le h
  refine ⟨id, flags, addr, len, count, payload, cs, rfl, xsum_eq_iff_xsum_concat_eq_zero, ?_, ?_⟩
  · exact fun hcs => (decodeBody_concat ..).trans (if_pos hcs)
  · exact fun hcs => (decodeBody_concat ..).trans (if_neg hcs)

/-- Settles O4: after its header a packet is a body ENCODE builds. -/
theorem decodeRecoversEncodedFields : Obligations.DecodeRecoversEncodedFields :=
  fun id flags addr len count payload =>
    ⟨rfl, rfl, decodeBody_frameBody id flags addr len count payload⟩

/-! ### Corruption -/

theorem twoPow_ne_zero {j : Nat} (h : j < 8) : BitVec.twoPow 8 j ≠ 0 := fun he => by
  have hbit := congrArg (BitVec.getLsbD · j) he
  simp [h] at hbit

/-- Settles O5: a body that passes has sum zero, so another of its length passes exactly when the
flipped masks sum to zero. -/
theorem corruptionDetection : Obligations.CorruptionDetection := by
  intro b f hf
  have hlen : 6 ≤ b.length := six_le_of_decodeBody_eq_ok hf
  have hsum : xsum b = 0#8 := by rw [decodeBody_eq_ok_iff.1 hf]; exact xsum_frameBody ..
  refine ⟨fun b' hb' => ?_, fun k j v hk hj => ?_, fun k k' j v v' hne hk hk' _ => ?_⟩
  · rw [xsum_zipWith_xor hb', hsum, BitVec.zero_xor]
    refine ⟨fun hm hx => ?_, fun hx => decodeBody_of_xsum_ne_zero (hb' ▸ hlen) hx⟩
    obtain ⟨_, hg⟩ := decodeBody_of_xsum_eq_zero (hb' ▸ hlen) hx
    cases hm.symm.trans hg
  · refine decodeBody_of_xsum_ne_zero (by rwa [List.length_set]) ?_
    rw [xsum_set_xor _ hk, hsum, BitVec.zero_xor]
    exact twoPow_ne_zero hj
  · refine decodeBody_of_xsum_eq_zero (by rwa [List.length_set, List.length_set]) ?_
    have hk'' : (b.set k (v ^^^ BitVec.twoPow 8 j))[k']? = some v' := by
      rwa [List.getElem?_set_ne hne]
    rw [xsum_set_xor _ hk'', xsum_set_xor _ hk, hsum, BitVec.zero_xor]
    exact BitVec.xor_self

end Sys2Proof.Machine
end

section
/-! PROOFS. Frames and instructions of 30_encoding.md: the payload bytes (O12, O13), the decoder and the
encoder (O7, O8, O10, O11), the opcode table's words (O9). -/

namespace Sys2Proof.Machine

/-! ### Two bytes as a 16-bit pattern -/

theorem toNat_ofLe16 (lo hi : Byte) : (ofLe16 lo hi).toNat = lo.toNat + 256 * hi.toNat := by
  rw [ofLe16, BitVec.toNat_append, ← Nat.shiftLeft_add_eq_or_of_lt lo.isLt, Nat.shiftLeft_eq]
  omega

theorem le16_eq (v : Half) : le16 v = [v.extractLsb' 0 8, v.extractLsb' 8 8] := rfl

/-- The two payload bytes of a pattern give it back. -/
theorem ofLe16_extractLsb' (v : Half) : ofLe16 (v.extractLsb' 0 8) (v.extractLsb' 8 8) = v := by
  apply BitVec.eq_of_toNat_eq
  rw [toNat_ofLe16, BitVec.extractLsb'_toNat, BitVec.extractLsb'_toNat]
  have hv := v.isLt
  simp only [Nat.shiftRight_eq_div_pow]
  omega

theorem le16_ofLe16 (lo hi : Byte) : le16 (ofLe16 lo hi) = [lo, hi] := by
  have hlo := lo.isLt
  have hhi := hi.isLt
  have hlow : (ofLe16 lo hi).extractLsb' 0 8 = lo := by
    apply BitVec.eq_of_toNat_eq
    rw [BitVec.extractLsb'_toNat, toNat_ofLe16, Nat.shiftRight_eq_div_pow]
    omega
  have hhigh : (ofLe16 lo hi).extractLsb' 8 8 = hi := by
    apply BitVec.eq_of_toNat_eq
    rw [BitVec.extractLsb'_toNat, toNat_ofLe16, Nat.shiftRight_eq_div_pow]
    omega
  rw [le16_eq, hlow, hhigh]

theorem toNat_le16_bytes (v : Half) :
    v.toNat = (v.extractLsb' 0 8).toNat + 256 * (v.extractLsb' 8 8).toNat := by
  rw [← toNat_ofLe16, ofLe16_extractLsb']

/-! ### Angles -/

theorem angleInRange_iff (a : Int) : angleInRange a = true ↔ -32768 ≤ a ∧ a ≤ 32767 := by
  simp only [angleInRange, Bool.and_eq_true, decide_eq_true_eq]

theorem toInt_tc16 {a : Int} (h : angleInRange a = true) : (tc16 a).toInt = a := by
  obtain ⟨hlow, hhigh⟩ := (angleInRange_iff a).1 h
  rw [tc16, BitVec.toInt_ofInt]
  exact Int.bmod_eq_of_le (by simpa using hlow) (by omega)

/-- Two payload bytes are the two's complement of the angle they read as. -/
theorem tc16_angleOf (lo hi : Byte) : tc16 (angleOf lo hi) = ofLe16 lo hi :=
  BitVec.ofInt_toInt

theorem angleOf_eq (lo hi : Byte) : angleOf lo hi =
    if lo.toNat + 256 * hi.toNat < 32768 then ((lo.toNat + 256 * hi.toNat : Nat) : Int)
    else ((lo.toNat + 256 * hi.toNat : Nat) : Int) - 65536 := by
  rw [angleOf, BitVec.toInt_eq_toNat_cond, toNat_ofLe16]
  split_ifs <;> omega

theorem angleOf_tc16 {a : Int} (h : angleInRange a = true) :
    angleOf ((tc16 a).extractLsb' 0 8) ((tc16 a).extractLsb' 8 8) = a := by
  rw [angleOf, ofLe16_extractLsb', toInt_tc16 h]

theorem movePayload_eq (angle : Int) (time : Half) :
    movePayload angle time =
      [(tc16 angle).extractLsb' 0 8, (tc16 angle).extractLsb' 8 8,
        time.extractLsb' 0 8, time.extractLsb' 8 8] := rfl

/-- MOVE's payload of the angle and the time four bytes read as is those four bytes. -/
theorem movePayload_angleOf (aL aH tL tH : Byte) :
    movePayload (angleOf aL aH) (ofLe16 tL tH) = [aL, aH, tL, tH] := by
  rw [movePayload, tc16_angleOf, le16_ofLe16, le16_ofLe16]
  rfl

/-- Settles O12: the pattern is read off its two bytes, and an angle in range off its pattern. -/
theorem movePayloadAndAngleReadback : Obligations.MovePayloadAndAngleReadback := by
  refine ⟨angleOf_eq, fun angle time hlow hhigh => ?_⟩
  have hback := angleOf_tc16 ((angleInRange_iff angle).2 ⟨hlow, hhigh⟩)
  refine ⟨_, _, _, _, movePayload_eq angle time, ?_, (toNat_le16_bytes time).symm, hback⟩
  rw [angleOf_eq] at hback
  split_ifs at hback ⊢ <;> omega

/-! ### The reply delay -/

theorem toNat_delayUs (c : Byte) : (delayUs c).toNat = 100 + 50 * c.toNat := by
  have hc := c.isLt
  rw [delayUs, BitVec.toNat_add, BitVec.toNat_mul, BitVec.toNat_setWidth]
  change (100 + 50 * (c.toNat % 65536) % 65536) % 65536 = _
  omega

/-- Settles O13: no carry leaves the 16 bits. -/
theorem replyDelayConversion : Obligations.ReplyDelayConversion := by
  intro s c
  have hc := c.isLt
  refine ⟨toNat_delayUs c, ?_, rfl⟩
  rw [toNat_delayUs]
  omega

/-! ### The decoder on frames -/

theorem decode_encodeFrame (p : Params) {id flags addr len count : Byte} {payload : List Byte}
    (h : payload.length = len.toNat * count.toNat) :
    decode p (encodeFrame id flags addr len count payload) =
      classify p ⟨id, flags, addr, len, count, payload⟩ := by
  simp [decode, encodeFrame, decodeBody_frameBody, h]

theorem decode_responseFrame (p : Params) {id flags addr len count : Byte} {payload : List Byte}
    (h : payload.length ≤ 255) :
    decode p (responseFrame id flags addr len count payload) =
      .ok (.response id flags addr len count payload) := by
  simp [decode, responseFrame, decodeBody_frameBody, h, hReq1, hRsp1]

/-- What the decoder accepts is a request frame of a row of R111, or a response frame. -/
theorem decode_eq_ok {p : Params} {bs : List Byte} {i : Instr} (h : decode p bs = .ok i) :
    (∃ f : Fields, bs = encodeFrame f.id f.flags f.addr f.len f.count f.payload ∧
      f.payload.length = f.len.toNat * f.count.toNat ∧ classify p f = .ok i) ∨
    ∃ f : Fields, bs = responseFrame f.id f.flags f.addr f.len f.count f.payload ∧
      i = .response f.id f.flags f.addr f.len f.count f.payload := by
  unfold decode at h
  split at h
  · next h1 h2 body =>
    split at h
    · cases h
    · cases h
    · next f hf =>
      obtain rfl := decodeBody_eq_ok_iff.1 hf
      split_ifs at h with hreq hlen hrsp
      · obtain ⟨rfl, rfl⟩ := hreq
        exact .inl ⟨f, rfl, hlen, h⟩
      · obtain ⟨rfl, rfl⟩ := hrsp
        cases h
        exact .inr ⟨f, rfl, rfl⟩
  · cases h

/-! ### The rows of R111 -/

/-- A write whose length is that of no named write is a WRITE, whatever its address. -/
theorem classify_write {p : Params} {id addr len : Byte} {data : List Byte}
    (hd : data.length = len.toNat) (hs : (Instr.write id addr len data).mostSpecific p = true) :
    classify p ⟨id, fWrite, addr, len, 1, data⟩ = .ok (.write id addr len data) := by
  simp only [Instr.mostSpecific, Bool.and_eq_true, Bool.not_eq_true', Bool.and_eq_false_iff,
    Bool.or_eq_false_iff, decide_eq_false_iff_not] at hs
  obtain ⟨hone, hfour⟩ := hs
  match data, hd with
  | [v], hd =>
    have hlen : len = 1 := BitVec.eq_of_toNat_eq hd.symm
    obtain ⟨⟨⟨⟨h1, h2⟩, h3⟩, h4⟩, h5⟩ := hone.resolve_left (not_not_intro hlen)
    simp [classify, fRom, fReboot, fReset, fWrite, h1, h2, h3, h4, h5]
  | [aL, aH, tL, tH], hd =>
    have hlen : len = 4 := BitVec.eq_of_toNat_eq hd.symm
    have haddr := hfour.resolve_left (not_not_intro hlen)
    simp [classify, fRom, fReboot, fReset, fWrite, haddr]
  | [], _ | [_, _], _ | [_, _, _], _ | _ :: _ :: _ :: _ :: _ :: _, _ =>
    simp [classify, fRom, fReboot, fReset, fWrite]

theorem classify_read {p : Params} {id addr len : Byte}
    (hs : (Instr.read id addr len).mostSpecific p = true) :
    classify p ⟨id, fRead, addr, len, 0, []⟩ = .ok (.read id addr len) := by
  simp only [Instr.mostSpecific, Bool.and_eq_true, Bool.not_eq_true', Bool.and_eq_false_iff,
    decide_eq_false_iff_not, ← not_and_or] at hs
  obtain ⟨hstat, hangle⟩ := hs
  simp [classify, fRom, fReboot, fReset, fWrite, fRead, hstat, hangle]

theorem classify_move {p : Params} {id : Byte} {angle : Int} (time : Half)
    (h : angleInRange angle = true) :
    classify p ⟨id, fWrite, aGoal, 4, 1, movePayload angle time⟩ = .ok (.move id angle time) := by
  simp [classify, movePayload_eq, angleOf_tc16 h, ofLe16_extractLsb', fRom, fReboot, fReset, fWrite]

theorem classify_rdangle (p : Params) (id : Byte) :
    classify p ⟨id, fRead, aAngle, p.angleLen, 0, []⟩ = .ok (.rdangle id) := by
  simp [classify, fRom, fReboot, fReset, fWrite, fRead, statusAddr, aId, aAngle]

/-- Settles O7, one case for each instruction with a frame: the decoder splits the frame into its fields,
which are those of the instruction's row. -/
theorem decodeOfEncodedInstruction : Obligations.DecodeOfEncodedInstruction := by
  intro p i bs hwf hspec henc
  cases i with
  | romcommit | reboot | freset | rdstat =>
    cases henc
    rw [decode_encodeFrame p (by simp)]
    simp [classify, fRom, fReboot, fReset, fWrite, fRead]
  | setid | setrev | setbaud | setdelay | torque =>
    cases henc
    rw [decode_encodeFrame p (by simp)]
    simp [classify, fRom, fReboot, fReset, fWrite, aId, aRev, aBaud, aDelay, aTorque]
  | move id angle time =>
    cases henc
    simp only [Instr.wf, Bool.and_eq_true] at hwf
    exact (decode_encodeFrame p rfl).trans (classify_move time hwf.2)
  | rdangle id =>
    cases henc
    exact (decode_encodeFrame p (by simp)).trans (classify_rdangle p id)
  | write id addr len data =>
    cases henc
    simp only [Instr.wf, Bool.and_eq_true, decide_eq_true_eq] at hwf
    exact (decode_encodeFrame p (by simpa using hwf.2)).trans (classify_write hwf.2 hspec)
  | read id addr len =>
    cases henc
    exact (decode_encodeFrame p (by simp)).trans (classify_read hspec)
  | response id flags addr len count payload =>
    cases henc
    exact decode_responseFrame p (by simpa [Instr.wf] using hwf)
  | xsum | encode | decode | reopen | send | receive | wait | persist | sweep | session =>
    cases henc

/-- What `classify` names a write's fields encodes as their frame, and is named most specifically. -/
theorem encode_of_classify_write {p : Params} {id addr len : Byte} {data : List Byte} {i : Instr}
    (hlen : data.length = len.toNat) (h : classify p ⟨id, fWrite, addr, len, 1, data⟩ = .ok i) :
    encode p i = some (encodeFrame id fWrite addr len 1 data) ∧ i.mostSpecific p = true := by
  rw [classify, if_neg (by simp), if_neg (by simp), if_neg (by simp), if_pos ⟨rfl, rfl⟩] at h
  dsimp only at h
  split at h
  · next v =>
    obtain rfl : len = 1 := BitVec.eq_of_toNat_eq hlen.symm
    split_ifs at h with h1 h2 h3 h4 h5 <;> cases h
    · exact ⟨by rw [h1]; rfl, rfl⟩
    · exact ⟨by rw [h2]; rfl, rfl⟩
    · exact ⟨by rw [h3]; rfl, rfl⟩
    · exact ⟨by rw [h4]; rfl, rfl⟩
    · exact ⟨by rw [h5]; rfl, rfl⟩
    · exact ⟨rfl, by simp [Instr.mostSpecific, h1, h2, h3, h4, h5]⟩
  · next aL aH tL tH =>
    obtain rfl : len = 4 := BitVec.eq_of_toNat_eq hlen.symm
    split_ifs at h with hgoal <;> cases h
    · exact ⟨by rw [hgoal, encode, movePayload_angleOf], rfl⟩
    · exact ⟨rfl, by simp [Instr.mostSpecific, hgoal]⟩
  · next hone hfour =>
    cases h
    have hne1 : len ≠ 1#8 := by
      rintro rfl
      obtain ⟨v, rfl⟩ := List.length_eq_one_iff.1 hlen
      exact hone v rfl
    have hne4 : len ≠ 4#8 := by
      rintro rfl
      match data, hlen with
      | [a, b, c, d], _ => exact hfour a b c d rfl
    exact ⟨rfl, by simp [Instr.mostSpecific, hne1, hne4]⟩

/-- What `classify` names a request's fields encodes as the frame of those fields, and is named most
specifically. -/
theorem encode_of_classify {p : Params} {f : Fields} {i : Instr}
    (hlen : f.payload.length = f.len.toNat * f.count.toNat) (h : classify p f = .ok i) :
    encode p i = some (encodeFrame f.id f.flags f.addr f.len f.count f.payload) ∧
      i.mostSpecific p = true := by
  obtain ⟨id, flags, addr, len, count, payload⟩ := f
  dsimp only at hlen ⊢
  by_cases hwrite : flags = fWrite ∧ count = 1
  · obtain ⟨rfl, rfl⟩ := hwrite
    exact encode_of_classify_write (by simpa using hlen) h
  have hnil (hc : count = 0) : payload = [] :=
    List.length_eq_zero_iff.1 (by simpa [hc] using hlen)
  simp only [classify, if_neg hwrite] at h
  split_ifs at h with hrom hboot hreset hread hstat hangle <;> cases h
  · obtain ⟨rfl, rfl, rfl, hcount⟩ := hrom
    exact ⟨by rw [hnil hcount, hcount]; rfl, rfl⟩
  · obtain ⟨rfl, rfl, rfl, hcount⟩ := hboot
    exact ⟨by rw [hnil hcount, hcount]; rfl, rfl⟩
  · obtain ⟨rfl, rfl, rfl, hcount⟩ := hreset
    exact ⟨by rw [hnil hcount, hcount]; rfl, rfl⟩
  · obtain ⟨⟨rfl, hcount⟩, rfl, rfl⟩ := And.intro hread hstat
    exact ⟨by rw [hnil hcount, hcount]; rfl, rfl⟩
  · obtain ⟨⟨rfl, hcount⟩, rfl, rfl⟩ := And.intro hread hangle
    exact ⟨by rw [hnil hcount, hcount]; rfl, rfl⟩
  · obtain ⟨rfl, hcount⟩ := hread
    refine ⟨by rw [hnil hcount, hcount]; rfl, ?_⟩
    simpa [Instr.mostSpecific, ← not_and_or] using And.intro hstat hangle

/-- Settles O8: an accepted request is its row's encoding, and a response frame that of a RESPONSE. -/
theorem encodeOfDecodedFrame : Obligations.EncodeOfDecodedFrame := by
  intro p bs i h
  obtain ⟨f, rfl, hlen, hf⟩ | ⟨f, rfl, rfl⟩ := decode_eq_ok h
  · exact encode_of_classify hlen hf
  · exact ⟨rfl, rfl⟩

/-- Settles O10: each named command's frame is written with the fields of the WRITE or READ. -/
theorem namedCommandsAreWritesAndReads : Obligations.NamedCommandsAreWritesAndReads :=
  fun _ _ _ _ _ => ⟨rfl, rfl, rfl, rfl, rfl, rfl, rfl, rfl⟩

/-- Settles O11: the tests of the decoder on the frames of 42_commands.md, and on one wrong
checksum. -/
theorem sampleFramesDecode : Obligations.SampleFramesDecode :=
  ⟨Tests.test_decode_romcommit, Tests.test_decode_freset, Tests.test_decode_setid,
    Tests.test_decode_move, Tests.test_decode_write, Tests.test_decode_rdstat, by decide⟩

/-! ### The opcode table's words -/

/-- Masking a word masks its last byte and the word before it. -/
theorem word_land (w m : Nat) (b c : Byte) :
    (w * 256 + b.toNat) &&& (m * 256 + c.toNat) = (w &&& m) * 256 + (b &&& c).toNat := by
  have hbyte (x : Nat) (y : Byte) (j : Nat) : (x * 256 + y.toNat).testBit j =
      if j < 8 then y.toNat.testBit j else x.testBit (j - 8) := by
    rw [Nat.mul_comm x 256]
    exact Nat.testBit_two_pow_mul_add x y.isLt j
  refine Nat.eq_of_testBit_eq fun j => ?_
  rw [Nat.testBit_and, hbyte, hbyte, hbyte, BitVec.toNat_and, Nat.testBit_and, Nat.testBit_and]
  split_ifs <;> rfl

/-- Masking a head word masks its seven bytes. -/
theorem headWord_land (b₁ b₂ b₃ b₄ b₅ b₆ b₇ m₁ m₂ m₃ m₄ m₅ m₆ m₇ : Byte) (bs : List Byte) :
    headWord ([b₁, b₂, b₃, b₄, b₅, b₆, b₇] ++ bs) &&& headWord [m₁, m₂, m₃, m₄, m₅, m₆, m₇] =
      headWord [b₁ &&& m₁, b₂ &&& m₂, b₃ &&& m₃, b₄ &&& m₄, b₅ &&& m₅, b₆ &&& m₆, b₇ &&& m₇] := by
  simp [headWord, word_land, -Nat.zero_mul]

theorem byte_and_ff (b : Byte) : b &&& 0xFF = b := BitVec.and_allOnes

theorem byte_and_zero (b : Byte) : b &&& 0 = 0 := BitVec.and_zero

section
variable (id flags addr len count : Byte) (payload : List Byte)

/-- The mask of the rows that fix every field but the ID. -/
theorem headWord_encodeFrame_land_fixed :
    headWord (encodeFrame id flags addr len count payload) &&& 0xFFFF00FFFFFFFF =
      headWord [hReq1, hReq2, 0, flags, addr, len, count] := by
  rw [show 0xFFFF00FFFFFFFF = headWord [0xFF, 0xFF, 0, 0xFF, 0xFF, 0xFF, 0xFF] by decide]
  refine (headWord_land hReq1 hReq2 id flags addr len count ..).trans ?_
  simp only [byte_and_ff, byte_and_zero]

/-- The mask of WRITE's and READ's rows, which leave the address and the length open. -/
theorem headWord_encodeFrame_land_open :
    headWord (encodeFrame id flags addr len count payload) &&& 0xFFFF00FF0000FF =
      headWord [hReq1, hReq2, 0, flags, 0, 0, count] := by
  rw [show 0xFFFF00FF0000FF = headWord [0xFF, 0xFF, 0, 0xFF, 0, 0, 0xFF] by decide]
  refine (headWord_land hReq1 hReq2 id flags addr len count ..).trans ?_
  simp only [byte_and_ff, byte_and_zero]

/-- The mask of a response's row, which fixes the header only. -/
theorem headWord_responseFrame_land :
    headWord (responseFrame id flags addr len count payload) &&& 0xFFFF0000000000 =
      0xFDDF0000000000 := by
  rw [show 0xFFFF0000000000 = headWord [0xFF, 0xFF, 0, 0, 0, 0, 0] by decide]
  refine (headWord_land hRsp1 hRsp2 id flags addr len count ..).trans ?_
  simp only [byte_and_ff, byte_and_zero]
  decide

end

/-- A head word whose length byte is a parameter. -/
theorem headWord_length_open (b₁ b₂ b₃ b₄ b₅ len b₇ : Byte) :
    headWord [b₁, b₂, b₃, b₄, b₅, len, b₇] =
      headWord [b₁, b₂, b₃, b₄, b₅, 0, b₇] + len.toNat * 0x100 := by
  have hzero : (0 : Byte).toNat = 0 := rfl
  simp only [headWord, List.take, List.foldl, hzero]
  omega

/-- Settles O9: the accepted bytes are the frame of what is answered, and its row is the masked head
word of that frame. -/
theorem decodedFramesMatchTableRow : Obligations.DecodedFramesMatchTableRow := by
  intro p bs i mask mtch hdec hrow
  obtain ⟨henc, _⟩ := encodeOfDecodedFrame p bs i hdec
  cases i with
  | romcommit | reboot | setid | setrev | setbaud | setdelay | torque | move =>
    cases henc
    cases hrow
    rw [headWord_encodeFrame_land_fixed]
    decide
  | freset | rdstat | rdangle =>
    cases henc
    cases hrow
    rw [headWord_encodeFrame_land_fixed, headWord_length_open]
    congr 1
  | write | read =>
    cases henc
    cases hrow
    rw [headWord_encodeFrame_land_open]
    decide
  | response =>
    cases henc
    cases hrow
    exact headWord_responseFrame_land ..
  | xsum | encode | decode | reopen | send | receive | wait | persist | sweep | session =>
    cases henc

end Sys2Proof.Machine
end

section
/-! PROOFS. Calling a command (42_commands.md): what a step gives to `exec` (O38), acceptance of each
command (O15 to O19), the order of the tests (O20), a call while a program runs (O22). -/

namespace Sys2Proof.Machine

/-! ### Steps by their input -/

section
variable {s : State} {rest : List Input}

theorem step_nil (h : s.inbox = []) : step s = framerMove s := by
  simp only [step, h]

theorem step_tick (h : s.inbox = .tick :: rest) :
    step s = framerMove { s with inbox := rest } := by
  simp only [step, h]

theorem step_reset (h : s.inbox = .reset :: rest) :
    step s = .next (applyReset { s with inbox := rest }) := by
  simp only [step, h]

theorem step_start {c : Intent} (h : s.inbox = .start c :: rest) :
    step s = execSession c { s with inbox := rest } := by
  simp only [step, h, exec]

theorem step_cmd {i : Instr} (h : s.inbox = .cmd i :: rest) (hi : i.isCommand = true) :
    step s = exec i { s with inbox := rest } := by
  simp only [step, h, hi, if_true]

theorem step_frame {bs : List Byte} {i : Instr} (h : s.inbox = .frame bs :: rest)
    (hd : decode s.params bs = .ok i) : step s = exec i { s with inbox := rest } := by
  simp only [step, h, hd]

theorem step_drained (h : s.inbox = .drained :: rest) :
    step s = .next (takeDrained { s with inbox := rest }) := by
  simp only [step, h]

theorem step_rx {b : Byte} (h : s.inbox = .rx b :: rest) :
    step s = .next (receiveWireByte b { s with inbox := rest }) := by
  simp only [step, h]

theorem step_rxTimeout (h : s.inbox = .rxTimeout :: rest) :
    step s = .next (takeTimeout { s with inbox := rest }) := by
  simp only [step, h]

end

/-- Settles O38: one equation for each input that names an instruction. -/
theorem stepRunsDecodedInstruction : Obligations.StepRunsDecodedInstruction :=
  fun _ _ _ => ⟨fun _ => step_frame, step_cmd, fun _ => step_start⟩

/-! ### Calls, one equation per test of R180 -/

section
variable {c : CmdCall} {s : State}

theorem callCommand_of_phase_ne_ready (h : s.phase ≠ .ready) :
    callCommand c s = refuseCall .commandRefused 1 s :=
  if_pos h

theorem callCommand_of_id_invalid (hp : s.phase = .ready) (hid : validId c.id = false) :
    callCommand c s = refuseCall .commandRefused 2 s := by
  simp [callCommand, hp, hid]

theorem callCommand_of_out_of_range (hp : s.phase = .ready) (hid : validId c.id = true)
    (hr : c.inRange = false) : callCommand c s = refuseCall .commandRefused 3 s := by
  simp [callCommand, hp, hid, hr]

theorem callCommand_of_length_mismatch (hp : s.phase = .ready) (hid : validId c.id = true)
    (hr : c.inRange = true) (hl : c.lengthOk = false) :
    callCommand c s = refuseCall .commandRefused 4 s := by
  simp [callCommand, hp, hid, hr, hl]

theorem callCommand_of_tests_passed (hp : s.phase = .ready) (hid : validId c.id = true)
    (hr : c.inRange = true) (hl : c.lengthOk = true) : callCommand c s = acceptCmd c s := by
  simp [callCommand, hp, hid, hr, hl]

theorem acceptCmd_of_not_read (h : c.op.isRead = false) :
    acceptCmd c s = s.afterCmd (latchCmd c s) c.prog := by
  simp [acceptCmd, State.afterCmd, loadProgram, h]

theorem acceptCmd_of_read (h : c.op.isRead = true) :
    acceptCmd c s = { s.afterCmd (latchCmd c s) c.prog with rd := clearedRd s } := by
  simp [acceptCmd, State.afterCmd, loadProgram, h]

end

/-- CommandRefused is flag bit 3 and code 5 (60_exceptions.md R261). -/
theorem refuseCall_commandRefused (info : Byte) (s : State) :
    refuseCall .commandRefused info s = s.afterRefusal 0b1000 5 info := rfl

/-! ### The call a command makes -/

section
variable {s : State} {i : Instr} {c : CmdCall}

/-- The tests of R180 are on the operands of the call. -/
theorem callTests_of_commandCall (h : commandCall s i = some c) :
    i.callTests = some (c.id, c.inRange, c.lengthOk) := by
  cases i <;> cases h <;> rfl

theorem isCommand_of_callTests {x : Byte × Bool × Bool} (h : i.callTests = some x) :
    i.isCommand = true := by
  cases i <;> first | rfl | cases h

theorem isCommand_of_commandCall (h : commandCall s i = some c) : i.isCommand = true :=
  isCommand_of_callTests (callTests_of_commandCall h)

theorem prog_ne_nil_of_commandCall (h : commandCall s i = some c) : c.prog ≠ [] := by
  cases i <;> cases h <;> exact List.cons_ne_nil _ _

theorem exec_of_commandCall (h : commandCall s i = some c) :
    exec i s = .next (callCommand c s) := by
  obtain ⟨c', hc', he⟩ := exec_command (isCommand_of_commandCall h) s
  cases h.symm.trans hc'
  exact he

theorem exec_accepted (h : commandCall s i = some c) (hp : s.phase = .ready)
    (hid : validId c.id = true) (hr : c.inRange = true) (hl : c.lengthOk = true) :
    exec i s = .next (acceptCmd c s) := by
  rw [exec_of_commandCall h, callCommand_of_tests_passed hp hid hr hl]

end

/-- Settles O20: an instruction with operands to test makes one call, and a call is decided by its
tests. -/
theorem commandTestOrder : Obligations.CommandTestOrder := by
  intro i s id inRange lengthOk ht
  obtain ⟨c, hc, he⟩ := exec_command (isCommand_of_callTests ht) s
  cases (callTests_of_commandCall hc).symm.trans ht
  simp only [he, ← refuseCall_commandRefused]
  refine ⟨fun hp => ?_, fun hp hid => ?_, fun hp hid hr => ?_, fun hp hid hr hl => ?_,
    fun hp hid hr hl => ⟨acceptCmd c s, ?_, rfl, rfl, rfl, rfl, ?_, ?_⟩⟩
  · rw [callCommand_of_phase_ne_ready hp]
  · rw [callCommand_of_id_invalid hp hid]
  · rw [callCommand_of_out_of_range hp hid hr]
  · rw [callCommand_of_length_mismatch hp hid hr hl]
  · rw [callCommand_of_tests_passed hp hid hr hl]
  · simpa using prog_ne_nil_of_commandCall hc
  · simp

theorem phase_ne_of_busy {s : State} (h : s.busy = true) : s.phase ≠ .idle ∧ s.phase ≠ .ready := by
  obtain hp | hp := (busy_iff s).1 h <;> simp [hp]

/-- Settles O22: a busy framer is in neither phase that accepts a call. -/
theorem refusalLeavesRunningProgram : Obligations.RefusalLeavesRunningProgram := by
  intro s c i rest hb
  obtain ⟨hidle, hready⟩ := phase_ne_of_busy hb
  refine ⟨fun hi => ?_, fun hi hk => ?_⟩
  · exact (step_start hi).trans (execSession_of_phase_ne_idle hidle)
  · obtain ⟨d, _, he⟩ := exec_command hk { s with inbox := rest }
    rw [step_cmd hi hk, he]
    exact congrArg _ (callCommand_of_phase_ne_ready hready)

/-! ### Frames in bytes, their checksums written out -/

theorem xsum_cons_eq_foldl (b : Byte) (bs : List Byte) :
    xsum (b :: bs) = bs.foldl (· ^^^ ·) b := by
  induction bs generalizing b with
  | nil => exact xsum_singleton b
  | cons c bs ih => rw [List.foldl_cons, ← ih, xsum, xsum, xsum, BitVec.xor_assoc]

theorem writeFrame_one (id addr v : Byte) :
    writeFrame id addr 1 [v] =
      [0xFA, 0xAF, id, 0x00, addr, 0x01, 0x01, v,
        id ^^^ 0x00 ^^^ addr ^^^ 0x01 ^^^ 0x01 ^^^ v] := by
  rw [writeFrame_eq_bytes]
  exact congrArg ([0xFA, 0xAF, id, 0x00, addr, 0x01, 0x01, v] ++ [·]) (xsum_cons_eq_foldl ..)

theorem writeFrame_four (id addr a b c d : Byte) :
    writeFrame id addr 4 [a, b, c, d] =
      [0xFA, 0xAF, id, 0x00, addr, 0x04, 0x01, a, b, c, d,
        id ^^^ 0x00 ^^^ addr ^^^ 0x04 ^^^ 0x01 ^^^ a ^^^ b ^^^ c ^^^ d] := by
  rw [writeFrame_eq_bytes]
  exact congrArg ([0xFA, 0xAF, id, 0x00, addr, 0x04, 0x01, a, b, c, d] ++ [·])
    (xsum_cons_eq_foldl ..)

/-- A frame with `Count = 0` and no payload. -/
theorem encodeFrame_empty (id flags addr len : Byte) :
    encodeFrame id flags addr len 0 [] =
      [0xFA, 0xAF, id, flags, addr, len, 0x00, id ^^^ flags ^^^ addr ^^^ len] := by
  have hcs : xsum [id, flags, addr, len, 0] = id ^^^ flags ^^^ addr ^^^ len :=
    (xsum_cons_eq_foldl ..).trans BitVec.xor_zero
  rw [encodeFrame_eq_bytes, ← hcs]
  rfl

theorem commitFrame_bytes (id : Byte) : commitFrame id =
    [0xFA, 0xAF, id, 0x40, 0xFF, 0x00, 0x00, id ^^^ 0x40 ^^^ 0xFF] := by
  rw [commitFrame, encodeFrame_empty]
  exact congrArg ([0xFA, 0xAF, id, 0x40, 0xFF, 0x00, 0x00] ++ [·]) BitVec.xor_zero

theorem rebootFrame_bytes (id : Byte) : rebootFrame id =
    [0xFA, 0xAF, id, 0x20, 0xFF, 0x00, 0x00, id ^^^ 0x20 ^^^ 0xFF] := by
  rw [rebootFrame, encodeFrame_empty]
  exact congrArg ([0xFA, 0xAF, id, 0x20, 0xFF, 0x00, 0x00] ++ [·]) BitVec.xor_zero

theorem resetFrame_bytes (p : Params) (id : Byte) : resetFrame p id =
    [0xFA, 0xAF, id, 0x10, 0xFF, p.resetLen, 0x00, id ^^^ 0x10 ^^^ 0xFF ^^^ p.resetLen] :=
  encodeFrame_empty ..

theorem readFrame_bytes (id addr len : Byte) : readFrame id addr len =
    [0xFA, 0xAF, id, 0x0F, addr, len, 0x00, id ^^^ 0x0F ^^^ addr ^^^ len] :=
  encodeFrame_empty ..

/-! ### Acceptance -/

section
variable {s : State} {i : Instr} {c : CmdCall} {ops : List UOp}

/-- A call that passes its tests and is no read changes only the command port. -/
theorem exec_afterCmd (hc : commandCall s i = some c) (hp : s.phase = .ready)
    (hid : validId c.id = true) (hr : c.inRange = true) (hl : c.lengthOk = true)
    (hop : c.op.isRead = false) (hops : c.prog = ops) :
    exec i s = .next (s.afterCmd (latchCmd c s) ops) := by
  rw [exec_accepted hc hp hid hr hl, acceptCmd_of_not_read hop, hops]

/-- A read that passes its tests clears the `RD_*` too. -/
theorem exec_afterCmd_read (hc : commandCall s i = some c) (hp : s.phase = .ready)
    (hid : validId c.id = true) (hr : c.inRange = true) (hl : c.lengthOk = true)
    (hop : c.op.isRead = true) (hops : c.prog = ops) :
    exec i s = .next { s.afterCmd (latchCmd c s) ops with rd := clearedRd s } := by
  rw [exec_accepted hc hp hid hr hl, acceptCmd_of_read hop, hops]

end

/-- A call of one data byte, written to one register, is accepted with its one frame. -/
theorem exec_oneByteWrite {s : State} {i : Instr} {op : CmdOp} {id addr v : Byte} {inRange : Bool}
    (hc : commandCall s i = some
      { op := op, id := id, data := [v], inRange := inRange, prog := writeProgram id addr 1 [v] })
    (hop : op.isRead = false) (hp : s.phase = .ready) (hid : validId id = true)
    (hr : inRange = true) :
    ∃ (a l : Byte) (an ti : Half), exec i s = .next (s.afterCmd ⟨op, id, a, l, [v], an, ti⟩
      [.usend [0xFA, 0xAF, id, 0x00, addr, 0x01, 0x01, v,
        id ^^^ 0x00 ^^^ addr ^^^ 0x01 ^^^ 0x01 ^^^ v]]) := by
  rw [← writeFrame_one]
  exact ⟨_, _, _, _, exec_afterCmd hc hp hid hr rfl hop rfl⟩

/-- Settles O15: the five commands are calls of one data byte at their addresses. -/
theorem oneByteWritesAccepted : Obligations.OneByteWritesAccepted := by
  intro s id v hp hid
  refine ⟨fun h1 h2 => ?_, fun h => ?_, fun h => ?_, fun h => ?_, fun h => ?_⟩
  · exact exec_oneByteWrite (addr := aId) rfl rfl hp hid (by simp [newIdInRange, h1, h2])
  · exact exec_oneByteWrite (addr := aRev) rfl rfl hp hid (by simp [rotInRange, h])
  · exact exec_oneByteWrite (addr := aBaud) rfl rfl hp hid (by simp [idxInRange, h])
  · exact exec_oneByteWrite (addr := aDelay) rfl rfl hp hid (by simp [delayInRange, h])
  · exact exec_oneByteWrite (addr := aTorque) rfl rfl hp hid (by simp [torqueInRange, h])

/-- Settles O16: the payload of the frame is the two's complement and the time code, in bytes. -/
theorem moveAccepted : Obligations.MoveAccepted := by
  intro s id angle time hp hid hlow hhigh
  have hr : angleInRange angle = true := (angleInRange_iff angle).2 ⟨hlow, hhigh⟩
  simp only [← writeFrame_four id 0x1E]
  exact ⟨_, _, _, _, _, _, tc16 angle, toInt_tc16 hr, toNat_le16_bytes _, toNat_le16_bytes _,
    exec_afterCmd (i := .move id angle time) rfl hp hid hr rfl rfl rfl⟩

/-- Settles O17: the frame is the write frame of the operands. -/
theorem writeAccepted : Obligations.WriteAccepted := by
  intro s id addr len data hp hid hd
  rw [← writeFrame_eq_bytes]
  exact ⟨_, _, exec_afterCmd (i := .write id addr len data) rfl hp hid rfl (decide_eq_true hd) rfl
    rfl⟩

/-- Settles O18: the four programs are made of the three control frames and their windows. -/
theorem controlCommandsAccepted : Obligations.ControlCommandsAccepted := by
  intro s id hp hid
  simp only [← commitFrame_bytes, ← rebootFrame_bytes, ← resetFrame_bytes]
  exact ⟨⟨_, _, _, _, exec_afterCmd (i := .romcommit id) rfl hp hid rfl rfl rfl rfl⟩,
    ⟨_, _, _, _, exec_afterCmd (i := .reboot id) rfl hp hid rfl rfl rfl rfl⟩,
    ⟨_, _, _, _, exec_afterCmd (i := .persist id) rfl hp hid rfl rfl rfl rfl⟩,
    ⟨_, _, _, _, exec_afterCmd (i := .freset id) rfl hp hid rfl rfl rfl rfl⟩⟩

/-- Settles O19: the three reads load one program, and the `RD_*` are cleared. -/
theorem readsAccepted : Obligations.ReadsAccepted := by
  intro s id addr len hp hid
  simp only [← readFrame_bytes]
  exact ⟨⟨_, _, _, _, _, _, _, _,
      exec_afterCmd_read (i := .read id addr len) rfl hp hid rfl rfl rfl rfl⟩,
    ⟨_, _, _, _, _, _, _, _, _, _,
      exec_afterCmd_read (i := .rdstat id) rfl hp hid rfl rfl rfl rfl⟩,
    ⟨_, _, _, _, _, _, _, _, _, _,
      exec_afterCmd_read (i := .rdangle id) rfl hp hid rfl rfl rfl rfl⟩⟩

end Sys2Proof.Machine
end

section
/-! PROOFS. The micro-programs: their frames (O6), the session's length and windows (O43, O44), the
persisted commits (O47), the sweep in place (O46), and what the invariant needs of a loaded program. -/

namespace Sys2Proof.Machine

/-! ### Request frames -/

/-- A frame as ENCODE builds it from well-formed arguments (30_encoding.md R99, 40_codec.md R132), its
payload no longer than a length byte says. -/
def RequestFrame (pkt : List Byte) : Prop :=
  ∃ id flags addr len count payload, pkt = encodeFrame id flags addr len count payload ∧
    payload.length = len.toNat * count.toNat ∧ encodeOk flags len count payload = true ∧
    payload.length ≤ 255

/-- A frame to be sent is a request frame. -/
def UOp.Framed : UOp → Prop
  | .usend pkt => RequestFrame pkt
  | .uopen _ | .urecv _ | .uwait _ | .ubaud _ | .ureport | .urdlatch => True

theorem requestFrame_length {pkt : List Byte} (h : RequestFrame pkt) :
    8 ≤ pkt.length ∧ pkt.length ≤ 263 := by
  obtain ⟨id, flags, addr, len, count, payload, rfl, _, _, hle⟩ := h
  rw [length_encodeFrame]
  omega

theorem requestFrame_write {id addr len : Byte} {data : List Byte} (h : data.length = len.toNat) :
    RequestFrame (writeFrame id addr len data) := by
  have hlen := len.isLt
  exact ⟨id, fWrite, addr, len, 1, data, rfl, by simp [h], by simp [encodeOk, h], by omega⟩

/-- The frames with no payload: reads and control commands. -/
theorem requestFrame_empty {flags : Byte} (id addr len : Byte) (h : flags ≠ fWrite) :
    RequestFrame (encodeFrame id flags addr len 0 []) :=
  ⟨id, flags, addr, len, 0, [], rfl, by simp, by simp [encodeOk, h], by simp⟩

theorem requestFrame_read (id addr len : Byte) : RequestFrame (readFrame id addr len) :=
  requestFrame_empty id addr len (by decide)

theorem requestFrame_commit (id : Byte) : RequestFrame (commitFrame id) :=
  requestFrame_empty id aCtrl 0 (by decide)

theorem requestFrame_reboot (id : Byte) : RequestFrame (rebootFrame id) :=
  requestFrame_empty id aCtrl 0 (by decide)

theorem requestFrame_reset (p : Params) (id : Byte) : RequestFrame (resetFrame p id) :=
  requestFrame_empty id aCtrl p.resetLen (by decide)

/-! ### The commands' programs -/

theorem framed_writeProgram {id addr len : Byte} {data : List Byte} (h : data.length = len.toNat) :
    ∀ u ∈ writeProgram id addr len data, u.Framed := by
  simpa [writeProgram, UOp.Framed] using requestFrame_write h

theorem framed_readProgram (id addr len : Byte) : ∀ u ∈ readProgram id addr len, u.Framed := by
  simpa [readProgram, UOp.Framed] using requestFrame_read id addr len

theorem framed_resetProgram (p : Params) (id : Byte) : ∀ u ∈ resetProgram p id, u.Framed := by
  simpa [resetProgram, UOp.Framed] using requestFrame_reset p id

theorem framed_persistProgram (p : Params) (id : Byte) : ∀ u ∈ persistProgram p id, u.Framed := by
  simpa [persistProgram_eq, UOp.Framed] using ⟨requestFrame_commit id, requestFrame_reboot id⟩

/-- Every frame an accepted command loads is a request frame. -/
theorem framed_of_commandCall {s : State} {i : Instr} {c : CmdCall} (h : commandCall s i = some c)
    (hl : c.lengthOk = true) : ∀ u ∈ c.prog, u.Framed := by
  cases i with
  | romcommit id =>
    cases h
    simpa [commitProgram, UOp.Framed] using requestFrame_commit id
  | reboot id =>
    cases h
    simpa [rebootProgram, UOp.Framed] using requestFrame_reboot id
  | freset id => cases h; exact framed_resetProgram _ _
  | persist id => cases h; exact framed_persistProgram _ _
  | setid | setrev | setbaud | setdelay | torque | move => cases h; exact framed_writeProgram rfl
  | rdstat | rdangle | read => cases h; exact framed_readProgram _ _ _
  | write => cases h; exact framed_writeProgram (of_decide_eq_true hl)
  | response | xsum | encode | decode | reopen | send | receive | wait | sweep | session => cases h

/-! ### The session's micro-operations -/

/-- `session_program` (44_session.md R231) without its tags. -/
def sessionOps (p : Params) (c : Intent) : List UOp :=
  (if c.sweep then sweepOps p (baudIdxOf c.tbaud) else []) ++
  ([.uopen (baudIdxOf c.tbaud)] ++
  ((if c.reset then factoryResetOps p else []) ++
  ((if c.newid ≠ 0 then persistedWrite p aId c.newid else []) ++
  ((if c.delay.toNat ≤ 127 then persistedWrite p aDelay c.delay else []) ++
  ((if c.rot.toNat ≤ 1 then persistedWrite p aRev c.rot else []) ++
  (writeProgram broadcastId aTorque 1 [1] ++
  (if c.statusEn then statusReportOps p else [])))))))

theorem map_snd_tagged (t : Seq) (us : List UOp) : (tagged t us).map Prod.snd = us := by
  simp [tagged]

theorem map_snd_sessionProgram (p : Params) (c : Intent) :
    (sessionProgram p c).map Prod.snd = sessionOps p c := by
  simp only [sessionProgram, sessionTail, sweepProgram, sessionOps, List.map_append,
    apply_ite (List.map Prod.snd), map_snd_tagged, List.map_nil, List.append_assoc]

theorem framed_persistedWrite (p : Params) (addr v : Byte) :
    ∀ u ∈ persistedWrite p addr v, u.Framed :=
  List.forall_mem_append.2 ⟨framed_writeProgram rfl, framed_persistProgram _ _⟩

theorem framed_sweepCycle (p : Params) (target i : BaudIdx) :
    ∀ u ∈ sweepCycle p target i, u.Framed :=
  List.forall_mem_cons.2 ⟨trivial, List.forall_mem_append.2
    ⟨framed_writeProgram rfl, framed_persistProgram _ _⟩⟩

theorem framed_sweepOps (p : Params) (target : BaudIdx) : ∀ u ∈ sweepOps p target, u.Framed := by
  intro u hu
  obtain ⟨i, _, hi⟩ := List.mem_flatMap.1 hu
  exact framed_sweepCycle p target i u hi

theorem framed_factoryResetOps (p : Params) : ∀ u ∈ factoryResetOps p, u.Framed := by
  refine List.forall_mem_append.2 ⟨List.forall_mem_append.2
    ⟨framed_resetProgram _ _, framed_persistProgram _ _⟩, ?_⟩
  simp [UOp.Framed]

theorem framed_statusReportOps (p : Params) : ∀ u ∈ statusReportOps p, u.Framed := by
  simpa [statusReportOps, UOp.Framed] using requestFrame_read ..

theorem forall_mem_ite_nil {α : Type} {P : α → Prop} {q : Prop} [Decidable q] {us : List α}
    (h : q → ∀ u ∈ us, P u) : ∀ u ∈ (if q then us else []), P u := by
  split
  · next hq => exact h hq
  · simp

/-- What holds of the micro-operations of every step holds of those of the session. -/
theorem forall_mem_sessionOps {P : UOp → Prop} {p : Params} {c : Intent}
    (hsweep : ∀ t, ∀ u ∈ sweepOps p t, P u) (hopen : ∀ i, P (.uopen i))
    (hreset : ∀ u ∈ factoryResetOps p, P u)
    (hwrite : ∀ addr v, ∀ u ∈ persistedWrite p addr v, P u)
    (htorque : ∀ u ∈ writeProgram broadcastId aTorque 1 [1], P u)
    (hstatus : c.statusEn = true → ∀ u ∈ statusReportOps p, P u) :
    ∀ u ∈ sessionOps p c, P u := by
  simp only [sessionOps, List.forall_mem_append]
  exact ⟨forall_mem_ite_nil fun _ => hsweep _, by simpa using hopen _,
    forall_mem_ite_nil fun _ => hreset, forall_mem_ite_nil fun _ => hwrite _ _,
    forall_mem_ite_nil fun _ => hwrite _ _, forall_mem_ite_nil fun _ => hwrite _ _, htorque,
    forall_mem_ite_nil hstatus⟩

theorem framed_sessionOps (p : Params) (c : Intent) : ∀ u ∈ sessionOps p c, u.Framed :=
  forall_mem_sessionOps (framed_sweepOps p) (fun _ => trivial) (framed_factoryResetOps p)
    (framed_persistedWrite p) (framed_writeProgram rfl) (fun _ => framed_statusReportOps p)

theorem framed_sessionProgram (p : Params) (c : Intent) : ∀ e ∈ sessionProgram p c, e.2.Framed :=
  fun _ he => framed_sessionOps p c _ (map_snd_sessionProgram p c ▸ List.mem_map_of_mem he)

/-- Settles O6: a new program is one an accepted call loads, and those are framed. -/
theorem programFramesAreWellFormed : Obligations.ProgramFramesAreWellFormed := by
  intro s t i e pkt hi hexec hne he hpkt
  suffices hf : e.2.Framed by
    rw [hpkt] at hf
    obtain ⟨id, flags, addr, len, count, payload, hp, hl, ho, _⟩ := hf
    exact ⟨id, flags, addr, len, count, payload, hp, hl, ho⟩
  obtain hk | ⟨c, rfl⟩ := hi
  · obtain ⟨c, hc, hcall⟩ := exec_command hk s
    cases hcall.symm.trans hexec
    obtain ⟨_, h⟩ | ⟨_, _, h⟩ | ⟨_, _, _, h⟩ | ⟨_, _, _, _, h⟩ | ⟨_, _, _, hl, h⟩ :=
      callCommand_cases c s <;> rw [h] at hne he
    all_goals try exact absurd (refuseCall_prog ..) hne
    obtain ⟨u, hu, rfl⟩ := List.mem_map.1 he
    exact framed_of_commandCall hc hl u hu
  · obtain ⟨_, h⟩ | ⟨_, _, h⟩ | ⟨_, _, _, h⟩ | ⟨_, _, h⟩ := execSession_cases c s <;>
      cases h.symm.trans hexec
    all_goals try exact absurd (refuseCall_prog ..) hne
    exact framed_sessionProgram s.params c e he

/-! ### Responses are latched -/

theorem responsesLatched_append {us vs : List UOp} (h : ∀ u ∈ us, u.straight = true)
    (hv : responsesLatched vs) : responsesLatched (us ++ vs) := by
  induction us with
  | nil => exact hv
  | cons u us ih =>
    obtain ⟨hu, hus⟩ := List.forall_mem_cons.1 h
    cases u <;> first | exact ih hus | cases hu

theorem responsesLatched_of_straight {us : List UOp} (h : ∀ u ∈ us, u.straight = true) :
    responsesLatched us :=
  List.append_nil us ▸ responsesLatched_append h trivial

theorem responsesLatched_readProgram (id addr len : Byte) :
    responsesLatched (readProgram id addr len) := .inr rfl

theorem responsesLatched_statusReportOps (p : Params) : responsesLatched (statusReportOps p) :=
  .inl rfl

theorem responsesLatched_of_commandCall {s : State} {i : Instr} {c : CmdCall}
    (h : commandCall s i = some c) : responsesLatched c.prog := by
  cases i with
  | rdstat | rdangle | read => cases h; exact responsesLatched_readProgram _ _ _
  | romcommit | reboot | freset | setid | setrev | setbaud | setdelay | torque | move | write
  | persist => cases h; exact responsesLatched_of_straight (List.all_eq_true.1 rfl)
  | response | xsum | encode | decode | reopen | send | receive | wait | sweep | session => cases h

/-- A session without a status read takes nothing from the line. -/
theorem straight_sessionOps {p : Params} {c : Intent} (h : c.statusEn = false) :
    ∀ u ∈ sessionOps p c, u.straight = true :=
  forall_mem_sessionOps (fun _ => List.all_eq_true.1 rfl) (fun _ => rfl) (List.all_eq_true.1 rfl)
    (fun _ _ => List.all_eq_true.1 rfl) (List.all_eq_true.1 rfl) (fun ht => by simp [h] at ht)

theorem sessionOps_eq_append_status (p : Params) (c : Intent) :
    sessionOps p c = sessionOps p { c with statusEn := false } ++
      if c.statusEn then statusReportOps p else [] := by
  simp only [sessionOps, List.append_assoc, Bool.false_eq_true, if_false, List.append_nil]

theorem responsesLatched_sessionOps (p : Params) (c : Intent) :
    responsesLatched (sessionOps p c) := by
  rw [sessionOps_eq_append_status]
  refine responsesLatched_append (straight_sessionOps rfl) ?_
  split
  · exact responsesLatched_statusReportOps p
  · trivial

/-! ### The tags of a session ascend -/

/-- The tags are session states from the number `n` on, in ascending order. -/
structure AscendFrom (n : Nat) (l : List (Seq × UOp)) : Prop where
  ascending : l.Pairwise fun a b => a.1.number ≤ b.1.number
  bounds : ∀ e ∈ l, n ≤ e.1.number ∧ e.1.number ≤ 8

theorem AscendFrom.nil (n : Nat) : AscendFrom n [] := ⟨.nil, by simp⟩

theorem AscendFrom.mono {m n : Nat} {l : List (Seq × UOp)} (h : AscendFrom n l) (hmn : m ≤ n) :
    AscendFrom m l :=
  ⟨h.ascending, fun e he => ⟨hmn.trans (h.bounds e he).1, (h.bounds e he).2⟩⟩

/-- A step before the later steps of a program. -/
theorem AscendFrom.tagged_append {t : Seq} {us : List UOp} {l : List (Seq × UOp)}
    (h : AscendFrom (t.number + 1) l) (ht : t.number ≤ 8) :
    AscendFrom t.number (tagged t us ++ l) := by
  have htag : ∀ e ∈ tagged t us, e.1 = t := by simp [tagged]
  have hl := h.mono (Nat.le_succ _)
  refine ⟨List.pairwise_append.2 ⟨?_, h.ascending, ?_⟩, List.forall_mem_append.2 ⟨?_, hl.bounds⟩⟩
  · exact List.pairwise_of_forall_mem_list fun a ha b hb => by rw [htag a ha, htag b hb]
  · exact fun a ha b hb => by rw [htag a ha]; exact (hl.bounds b hb).1
  · exact fun e he => by rw [htag e he]; exact ⟨le_rfl, ht⟩

/-- The session's program as steps, the absent ones empty. -/
theorem sessionProgram_eq_tagged (p : Params) (c : Intent) :
    sessionProgram p c =
      tagged .recoverySweep (if c.sweep then sweepOps p (baudIdxOf c.tbaud) else []) ++
      (tagged .baudOpen [.uopen (baudIdxOf c.tbaud)] ++
      (tagged .factoryReset (if c.reset then factoryResetOps p else []) ++
      (tagged .setID (if c.newid ≠ 0 then persistedWrite p aId c.newid else []) ++
      (tagged .setReplyDelay (if c.delay.toNat ≤ 127 then persistedWrite p aDelay c.delay else []) ++
      (tagged .setRotationSense (if c.rot.toNat ≤ 1 then persistedWrite p aRev c.rot else []) ++
      (tagged .torqueEnable (writeProgram broadcastId aTorque 1 [1]) ++
      (tagged .statusReport (if c.statusEn then statusReportOps p else []) ++ []))))))) := by
  simp only [sessionProgram, sessionTail, sweepProgram, tagged_ite_nil, List.append_assoc,
    List.append_nil]

theorem ascendFrom_sessionProgram (p : Params) (c : Intent) :
    AscendFrom 1 (sessionProgram p c) := by
  rw [sessionProgram_eq_tagged]
  refine .tagged_append (t := .recoverySweep) ?_ (by decide)
  refine .tagged_append (t := .baudOpen) ?_ (by decide)
  refine .tagged_append (t := .factoryReset) ?_ (by decide)
  refine .tagged_append (t := .setID) ?_ (by decide)
  refine .tagged_append (t := .setReplyDelay) ?_ (by decide)
  refine .tagged_append (t := .setRotationSense) ?_ (by decide)
  refine .tagged_append (t := .torqueEnable) ?_ (by decide)
  exact .tagged_append (t := .statusReport) (.nil 9) (by decide)

theorem sessionProgram_ne_nil (p : Params) (c : Intent) : sessionProgram p c ≠ [] := by
  simp [sessionProgram_eq_tagged, tagged]

/-! ### Lengths, frames, windows -/

theorem length_sweepOps (p : Params) (target : BaudIdx) : (sweepOps p target).length = 72 := by
  rw [← length_tagged .recoverySweep]
  exact length_sweepProgram p target

theorem countP_isSend_sweepOps (p : Params) (target : BaudIdx) :
    (sweepOps p target).countP UOp.isSend = 36 := rfl

theorem sum_window_sweepOps (p : Params) (target : BaudIdx) :
    ((sweepOps p target).map UOp.window).sum = (p.tCommitMs + p.tRebootMs) * 12 := by
  have cycles (is : List BaudIdx) : ((is.flatMap (sweepCycle p target)).map UOp.window).sum =
      (p.tCommitMs + p.tRebootMs) * is.length := by
    induction is with
    | nil => rfl
    | cons i is ih =>
      rw [List.flatMap_cons, List.map_append, List.sum_append, ih]
      simp [sweepCycle_eq, UOp.window]
      ring
  exact cycles baudIndices

theorem length_sessionOps (p : Params) (c : Intent) :
    (sessionOps p c).length =
      72 * (if c.sweep then 1 else 0) + 1 + 7 * (if c.reset then 1 else 0) +
        5 * (if c.newid ≠ 0 then 1 else 0) + 5 * (if c.delay.toNat ≤ 127 then 1 else 0) +
        5 * (if c.rot.toNat ≤ 1 then 1 else 0) + 1 + 3 * (if c.statusEn then 1 else 0) := by
  have hreset : (factoryResetOps p).length = 7 := rfl
  have hwrite (addr v : Byte) : (persistedWrite p addr v).length = 5 := rfl
  have htorque : (writeProgram broadcastId aTorque 1 [1]).length = 1 := rfl
  have hstatus : (statusReportOps p).length = 3 := rfl
  simp only [sessionOps, List.length_append, apply_ite List.length, length_sweepOps, hreset, hwrite,
    htorque, hstatus, List.length_nil, List.length_singleton, mul_ite, mul_one, mul_zero]
  omega

theorem countP_isSend_sessionOps (p : Params) (c : Intent) :
    (sessionOps p c).countP UOp.isSend =
      36 * (if c.sweep then 1 else 0) + 3 * (if c.reset then 1 else 0) +
        3 * (if c.newid ≠ 0 then 1 else 0) + 3 * (if c.delay.toNat ≤ 127 then 1 else 0) +
        3 * (if c.rot.toNat ≤ 1 then 1 else 0) + 1 + (if c.statusEn then 1 else 0) := by
  have hopen (i : BaudIdx) : [UOp.uopen i].countP UOp.isSend = 0 := rfl
  have hreset : (factoryResetOps p).countP UOp.isSend = 3 := rfl
  have hwrite (addr v : Byte) : (persistedWrite p addr v).countP UOp.isSend = 3 := rfl
  have htorque : (writeProgram broadcastId aTorque 1 [1]).countP UOp.isSend = 1 := rfl
  have hstatus : (statusReportOps p).countP UOp.isSend = 1 := rfl
  simp only [sessionOps, List.countP_append, apply_ite (List.countP UOp.isSend),
    countP_isSend_sweepOps, hopen, hreset, hwrite, htorque, hstatus, List.countP_nil, mul_ite,
    mul_one, mul_zero]
  omega

theorem sum_window_sessionOps (p : Params) (c : Intent) :
    ((sessionOps p c).map UOp.window).sum =
      (p.tCommitMs + p.tRebootMs) *
        (12 * (if c.sweep then 1 else 0) + (if c.reset then 1 else 0) +
          (if c.newid ≠ 0 then 1 else 0) + (if c.delay.toNat ≤ 127 then 1 else 0) +
          (if c.rot.toNat ≤ 1 then 1 else 0)) := by
  have hopen (i : BaudIdx) : ([UOp.uopen i].map UOp.window).sum = 0 := rfl
  have hreset : ((factoryResetOps p).map UOp.window).sum = p.tCommitMs + p.tRebootMs := by
    simp [factoryResetOps_eq_cons, persistProgram_eq, UOp.window]
  have hwrite (addr v : Byte) :
      ((persistedWrite p addr v).map UOp.window).sum = p.tCommitMs + p.tRebootMs := by
    simp [persistedWrite_eq_cons, persistProgram_eq, UOp.window]
  have htorque : ((writeProgram broadcastId aTorque 1 [1]).map UOp.window).sum = 0 := rfl
  have hstatus : ((statusReportOps p).map UOp.window).sum = 0 := rfl
  simp only [sessionOps, List.map_append, List.sum_append, apply_ite (List.map UOp.window),
    apply_ite List.sum, sum_window_sweepOps, hopen, hreset, hwrite, htorque, hstatus, List.map_nil,
    List.sum_nil, mul_add, mul_ite, mul_one, mul_zero, ite_self]
  omega

theorem length_sessionProgram (p : Params) (c : Intent) :
    (sessionProgram p c).length = (sessionOps p c).length := by
  rw [← map_snd_sessionProgram, List.length_map]

theorem length_filter_isSend_sessionProgram (p : Params) (c : Intent) :
    ((sessionProgram p c).filter fun e => e.2.isSend).length =
      (sessionOps p c).countP UOp.isSend := by
  rw [← map_snd_sessionProgram, List.countP_map, List.countP_eq_length_filter]
  rfl

/-- Settles O43: each step adds its micro-operations and its frames; the least and the longest session
have none and all of the optional steps. -/
theorem sessionProgramLength : Obligations.SessionProgramLength := by
  have hle (q : Prop) [Decidable q] : (if q then 1 else 0) ≤ 1 := by split <;> decide
  refine ⟨fun p c => ?_, fun p => ⟨⟨⟨0, false, 0, 2, 128, false, false⟩, ?_⟩,
    ⟨0, true, 1, 0, 0, true, true⟩, ?_⟩⟩
  · have := hle (c.sweep = true)
    have := hle (c.reset = true)
    have := hle (c.newid ≠ 0)
    have := hle (c.delay.toNat ≤ 127)
    have := hle (c.rot.toNat ≤ 1)
    have := hle (c.statusEn = true)
    rw [length_filter_isSend_sessionProgram, length_sessionProgram, length_sessionOps,
      countP_isSend_sessionOps]
    refine ⟨rfl, rfl, ?_, ?_, ?_⟩ <;> omega
  · rw [length_sessionProgram, length_sessionOps]; rfl
  · rw [length_sessionProgram, length_sessionOps]; rfl

/-- Settles O44: only the persisted steps wait, each for one commit window and one reboot window. -/
theorem sessionWindowsSum : Obligations.SessionWindowsSum := by
  intro p c
  rw [← sum_window_sessionOps, ← map_snd_sessionProgram, List.map_map]
  rfl

/-! ### Commits are persisted -/

/-- Every commit frame of the program is followed by its window, the reboot and its window, with the
same tag (42_commands.md R196). -/
def CommitsPersisted (p : Params) (l : List (Seq × UOp)) : Prop :=
  ∀ (k : Nat) (tag : Seq) (id : Byte), l[k]? = some (tag, .usend (commitFrame id)) →
    l[k + 1]? = some (tag, .uwait p.tCommitMs) ∧
    l[k + 2]? = some (tag, .usend (rebootFrame id)) ∧
    l[k + 3]? = some (tag, .uwait p.tRebootMs)

/-- The micro-operation sends a commit frame. -/
def UOp.IsCommit (u : UOp) : Prop := ∃ id, u = .usend (commitFrame id)

theorem not_isCommit_of_flags {flags : Byte} (id addr len count : Byte) (payload : List Byte)
    (h : flags ≠ fRom) :
    ¬ (UOp.usend (encodeFrame id flags addr len count payload)).IsCommit := by
  rintro ⟨id', he⟩
  have hflags := congrArg (·[3]?) (UOp.usend.inj he)
  exact h (Option.some.inj hflags)

theorem commitFrame_injective {id id' : Byte} (h : commitFrame id = commitFrame id') : id = id' :=
  Option.some.inj (congrArg (·[2]?) h)

section
variable {p : Params}

theorem CommitsPersisted.nil : CommitsPersisted p [] := by
  intro k tag id h
  simp at h

theorem CommitsPersisted.cons {e : Seq × UOp} {l : List (Seq × UOp)} (he : ¬ e.2.IsCommit)
    (hl : CommitsPersisted p l) : CommitsPersisted p (e :: l) := by
  intro k tag id h
  cases k with
  | zero => exact absurd ⟨id, congrArg Prod.snd (Option.some.inj h)⟩ he
  | succ k => exact hl k tag id h

theorem CommitsPersisted.append {l m : List (Seq × UOp)} (hl : CommitsPersisted p l)
    (hm : CommitsPersisted p m) : CommitsPersisted p (l ++ m) := by
  intro k tag id h
  by_cases hk : k < l.length
  · rw [List.getElem?_append_left hk] at h
    obtain ⟨h1, h2, h3⟩ := hl k tag id h
    have within {j : Nat} {x : Seq × UOp} (hj : l[j]? = some x) : (l ++ m)[j]? = some x := by
      rwa [List.getElem?_append_left (List.getElem?_eq_some_iff.1 hj).1]
    exact ⟨within h1, within h2, within h3⟩
  · rw [List.getElem?_append_right (Nat.le_of_not_lt hk)] at h
    obtain ⟨j, rfl⟩ := Nat.exists_eq_add_of_le (Nat.le_of_not_lt hk)
    rw [Nat.add_sub_cancel_left] at h
    have beyond (i : Nat) : (l ++ m)[l.length + i]? = m[i]? := by
      rw [List.getElem?_append_right (Nat.le_add_right ..), Nat.add_sub_cancel_left]
    simpa only [Nat.add_assoc, beyond] using hm j tag id h

theorem CommitsPersisted.ite {q : Prop} [Decidable q] {l : List (Seq × UOp)}
    (hl : CommitsPersisted p l) : CommitsPersisted p (if q then l else []) := by
  split
  · exact hl
  · exact .nil

theorem CommitsPersisted.flatMap {α : Type} {f : α → List (Seq × UOp)} {as : List α}
    (h : ∀ a, CommitsPersisted p (f a)) : CommitsPersisted p (as.flatMap f) := by
  induction as with
  | nil => exact .nil
  | cons a as ih => exact (h a).append ih

/-- PERSIST's program, before a program that persists its commits. -/
theorem CommitsPersisted.persistProgram_append {t : Seq} {id : Byte} {l : List (Seq × UOp)}
    (hl : CommitsPersisted p l) :
    CommitsPersisted p (tagged t (persistProgram p id) ++ l) := by
  intro k tag id' h
  cases k with
  | zero =>
    obtain ⟨rfl, hu⟩ := Prod.mk.inj (Option.some.inj h)
    obtain rfl := commitFrame_injective (UOp.usend.inj hu)
    exact ⟨rfl, rfl, rfl⟩
  | succ k =>
    have hwait (ms : Nat) : ¬ (UOp.uwait ms).IsCommit := nofun
    have hboot : ¬ (UOp.usend (rebootFrame id)).IsCommit := not_isCommit_of_flags _ _ _ _ _ (by decide)
    exact CommitsPersisted.cons (e := (t, _)) (hwait _)
      (.cons (e := (t, _)) hboot (.cons (e := (t, _)) (hwait _) hl)) k tag id' h

theorem commitsPersisted_persist (t : Seq) (id : Byte) :
    CommitsPersisted p (tagged t (persistProgram p id)) :=
  List.append_nil (tagged t (persistProgram p id)) ▸ CommitsPersisted.nil.persistProgram_append

theorem commitsPersisted_persistedWrite (t : Seq) (addr v : Byte) :
    CommitsPersisted p (tagged t (persistedWrite p addr v)) :=
  .cons (not_isCommit_of_flags _ _ _ _ _ (by decide)) (commitsPersisted_persist t _)

theorem commitsPersisted_sweepProgram (target : BaudIdx) :
    CommitsPersisted p (sweepProgram p target) := by
  rw [sweepProgram_eq_flatMap]
  exact .flatMap fun i => .cons nofun
    (.cons (not_isCommit_of_flags _ _ _ _ _ (by decide)) (commitsPersisted_persist _ _))

theorem commitsPersisted_factoryReset (t : Seq) :
    CommitsPersisted p (tagged t (factoryResetOps p)) :=
  .cons (not_isCommit_of_flags _ _ _ _ _ (by decide))
    (CommitsPersisted.persistProgram_append (.cons nofun (.cons nofun .nil)))

theorem commitsPersisted_statusReport (t : Seq) :
    CommitsPersisted p (tagged t (statusReportOps p)) :=
  .cons (not_isCommit_of_flags _ _ _ _ _ (by decide)) (.cons nofun (.cons nofun .nil))

end

/-- Settles O47: it holds of every step, and of steps one after the other. -/
theorem commitsAreAlwaysPersisted : Obligations.CommitsAreAlwaysPersisted := by
  intro p c
  change CommitsPersisted p (sessionProgram p c)
  rw [sessionProgram_eq_states]
  have hopen : CommitsPersisted p (tagged .baudOpen [.uopen (baudIdxOf c.tbaud)]) := .cons nofun .nil
  have htorque : CommitsPersisted p (tagged .torqueEnable (writeProgram broadcastId aTorque 1 [1])) :=
    .cons (not_isCommit_of_flags _ _ _ _ _ (by decide)) .nil
  exact (((((((commitsPersisted_sweepProgram _).ite.append hopen).append
    (commitsPersisted_factoryReset _).ite).append (commitsPersisted_persistedWrite _ _ _).ite).append
    (commitsPersisted_persistedWrite _ _ _).ite).append (commitsPersisted_persistedWrite _ _ _).ite).append
    htorque).append (commitsPersisted_statusReport _).ite

/-! ### The sweep in place -/

theorem execSweep_of_fresh {s : State} {target : BaudIdx}
    (h : s.phase = .session ∧ s.upc = 0 ∧ s.Between) :
    execSweep target s = .next { s with prog := sweepProgram s.params target ++ s.prog } :=
  if_pos h

theorem sessionProgram_of_sweep {p : Params} {c : Intent} (h : c.sweep = true) :
    sessionProgram p c =
      sweepProgram p (baudIdxOf c.tbaud) ++ sessionProgram p { c with sweep := false } := by
  simp [sessionProgram, h]
  rfl

/-- Settles O46: the swept session's program is the sweep's before the plain session's. -/
theorem sweepExpandsInPlace : Obligations.SweepExpandsInPlace := by
  refine ⟨fun s target hp hu hb => execSweep_of_fresh ⟨hp, hu, hb⟩, fun s target h => if_neg h, ?_⟩
  intro s t c hidle hb hv hsweep hstart
  rw [exec_session, execSession_of_intentValid hidle (c := { c with sweep := false }) hv] at hstart
  cases hstart
  refine ⟨_, execSweep_of_fresh ⟨rfl, rfl, hb⟩, ?_⟩
  rw [exec_session, execSession_of_intentValid hidle hv, acceptStart, sessionProgram_of_sweep hsweep]
  rfl

end Sys2Proof.Machine
end

section
/-! PROOFS. The invariant of the framer: it holds at reset (O58), from any state after `Reset` (O57),
every step keeps it (O59), and no step from it faults (O60); the micro-operation a step runs (O37). -/

namespace Sys2Proof.Machine

/-! ### The framer's move, by the micro-operation at `UPC` -/

section
variable {s : State}

theorem framerMove_uopen {i : BaudIdx} (h : fetchUop s = some (.uopen i)) :
    framerMove s = execReopen i s := by
  simp only [framerMove, h, UOp.toInstr, exec]

theorem framerMove_usend {pkt : List Byte} (h : fetchUop s = some (.usend pkt)) :
    framerMove s = execSend pkt s := by
  simp only [framerMove, h, UOp.toInstr, exec]

theorem framerMove_urecv {len : Byte} (h : fetchUop s = some (.urecv len)) :
    framerMove s = execReceive len s := by
  simp only [framerMove, h, UOp.toInstr, exec]

theorem framerMove_uwait {ms : Nat} (h : fetchUop s = some (.uwait ms)) :
    framerMove s = execWait ms s := by
  simp only [framerMove, h, UOp.toInstr, exec]

theorem framerMove_ubaud {i : BaudIdx} (h : fetchUop s = some (.ubaud i)) :
    framerMove s = .next (runBaud i s) := by
  simp only [framerMove, h, UOp.toInstr, runInternal]

theorem framerMove_ureport (h : fetchUop s = some .ureport) :
    framerMove s = .next (runReport s) := by
  simp only [framerMove, h, UOp.toInstr, runInternal]

theorem framerMove_urdlatch (h : fetchUop s = some .urdlatch) :
    framerMove s = .next (runRdlatch s) := by
  simp only [framerMove, h, UOp.toInstr, runInternal]

theorem framerMove_none (h : fetchUop s = none) : framerMove s = .next (engineMove s) := by
  simp only [framerMove, h]

end

/-- Settles O37: between micro-operations of a running program the fetch answers the one at `UPC`. -/
theorem stepRunsMicroOperation : Obligations.StepRunsMicroOperation := by
  intro s u hb ⟨hl, _, ht⟩ hu hi
  have hf := fetchUop_of_current hb hl ht hu
  rw [step_nil hi]
  refine ⟨?_, ?_, ?_, ?_, ?_⟩
  · rintro i rfl
    exact framerMove_uopen hf
  · rintro pkt rfl
    exact framerMove_usend hf
  · rintro len rfl
    exact framerMove_urecv hf
  · rintro ms rfl
    exact framerMove_uwait hf
  · rintro i rfl
    exact framerMove_ubaud hf

/-! ### Reset -/

/-- Settles O57: `Reset` writes the reset state, and keeps what is not the framer's. -/
theorem resetFromAnyState : Obligations.ResetFromAnyState := by
  intro s rest h
  refine ⟨_, step_reset h, ?_⟩
  simp [State.seq, State.busy, State.reset, defaultBaudIdx]

/-! ### What follows a response -/

/-- A `uRECV` is followed by one micro-operation that latches its result, the last of the program. -/
theorem drop_of_urecv {us : List UOp} {k : Nat} {len : Byte} (h : responsesLatched us)
    (hk : us[k]? = some (.urecv len)) : us.drop (k + 1) = [.ureport] ∨ us.drop (k + 1) = [.urdlatch] := by
  induction us generalizing k with
  | nil => simp at hk
  | cons u us ih =>
    cases k with
    | zero =>
      obtain rfl := Option.some.inj hk
      exact h
    | succ k =>
      have htail : us[k]? = some (.urecv len) := hk
      cases u with
      | uopen | usend | uwait | ubaud => exact ih h htail
      | urecv => obtain rfl | rfl := h <;> cases k <;> simp at htail
      | ureport | urdlatch => cases h; simp at htail

/-- A latch ends its program. -/
theorem length_of_latch {us : List UOp} {k : Nat} {u : UOp} (h : responsesLatched us)
    (hu : u = .ureport ∨ u = .urdlatch) (hk : us[k]? = some u) : us.length = k + 1 := by
  induction us generalizing k with
  | nil => simp at hk
  | cons v us ih =>
    cases k with
    | zero =>
      obtain rfl := Option.some.inj hk
      obtain rfl | rfl := hu <;> cases h <;> rfl
    | succ k =>
      have htail : us[k]? = some u := hk
      cases v with
      | uopen | usend | uwait | ubaud => exact congrArg Nat.succ (ih h htail)
      | urecv =>
        obtain rfl | rfl := h <;> cases k with
        | zero => rfl
        | succ k => simp at htail
      | ureport | urdlatch => cases h; simp at htail

theorem currentUop_eq (s : State) : s.currentUop = (s.prog.map Prod.snd)[s.upc]? := by
  rw [State.currentUop, List.getElem?_map]

/-! ### The invariant of a framer between micro-operations -/

/-- What the invariant says of the program and of the registers the host sees, apart from the link. -/
structure Loaded (s : State) : Prop where
  idle_empty : s.phase = .idle → s.prog = [] ∧ s.opn = false
  session_tags : s.phase = .session → AscendFrom 1 s.prog
  packets : ∀ t pkt, (t, UOp.usend pkt) ∈ s.prog → 8 ≤ pkt.length ∧ pkt.length ≤ 263
  latched : responsesLatched (s.prog.map Prod.snd)
  intent_ok : s.phase ≠ .idle → intentValid s.intent = true
  last_code : s.lasterr.code = 0 ∨ s.lasterr.code = 1 ∨ s.lasterr.code = 2 ∨ s.lasterr.code = 4 ∨
    s.lasterr.code = 5
  err_last : s.err = 0 ↔ s.lasterr.code = 0
  status : (s.st.valid = true ↔ s.doneMask.getLsbD 6 = true) ∧
    (s.st.valid = true → s.st.delayUs = delayUs s.st.delay)
  params_legal : s.params.legal = true

/-- `RXBUF` holds an accepted body, which the micro-operation at `UPC` latches. -/
def State.AwaitsLatch (s : State) : Prop :=
  (s.currentUop = some .ureport ∨ s.currentUop = some .urdlatch) ∧
    s.rxbuf.length = s.rxn ∧ 6 ≤ s.rxn ∧ ∃ f, decodeBody s.rxbuf = .ok f

theorem Inv.loaded {s : State} (h : Inv s) : Loaded s where
  idle_empty := h.idle_empty
  session_tags hp := ⟨(h.session_tags hp).1, (h.session_tags hp).2⟩
  packets := h.packets
  latched := h.latched
  intent_ok := h.intent_ok
  last_code := h.last_code
  err_last := h.err_last
  status := h.status
  params_legal := h.params_legal

/-- The link at rest: no micro-operation is in progress, `TXBUF` is empty and `RXBUF` holds at most an
accepted body that a running program is to latch. -/
structure LinkAtRest (s : State) : Prop where
  between : s.Between
  txbuf : s.txbuf = []
  rxdl : s.rxdl = .stopped
  opened : s.phase ≠ .idle → s.opn = true ∨ (s.phase = .session ∧ ∃ i, s.currentUop = some (.uopen i))
  accepted : s.rxres = .ok → s.busy = true → s.AwaitsLatch
  rx_window : s.rxbuf ≠ [] → s.rxres = .ok ∧ s.busy = true

section
variable {s : State}

theorem not_sending_of_idle (h : s.lst = .idle) : ¬ s.sending := by simp [State.sending, h]

theorem not_receiving_of_idle (h : s.lst = .idle) : ¬ s.receiving := by simp [State.receiving, h]

theorem not_receiving_of_sending (h : s.sending) : ¬ s.receiving := by
  obtain h | h := h <;> simp [State.receiving, h]

theorem not_sending_of_receiving (h : s.receiving) : ¬ s.sending :=
  fun hs => not_receiving_of_sending hs h

theorem Inv.of_rest (h : Loaded s) (hupc : s.upc ≤ s.prog.length)
    (hbusy : s.busy = true → s.upc < s.prog.length) (hrest : LinkAtRest s) : Inv s := by
  obtain ⟨⟨hlst, hdir, htimer⟩, htxbuf, hrxdl, hopened, haccepted, hwindow⟩ := hrest
  have hsend := not_sending_of_idle hlst
  have hrecv := not_receiving_of_idle hlst
  exact {
    upc_le := hupc
    busy_upc := hbusy
    idle_empty := h.idle_empty
    session_tags := fun hp => ⟨(h.session_tags hp).ascending, (h.session_tags hp).bounds⟩
    packets := h.packets
    latched := h.latched
    dir_tx := by simp [hdir, hsend]
    send_regs := fun hs => absurd hs hsend
    tx_window := fun hne => absurd htxbuf hne
    drain_txi := fun hd => by simp [hlst] at hd
    recv_regs := fun hr => absurd hr hrecv
    body_regs := fun hd => by simp [hlst] at hd
    accepted := haccepted
    rx_window := fun hne => .inr (hwindow hne)
    deadline := by simp [hrxdl, hrecv]
    window := fun ms hms => by simp [htimer] at hms
    active_busy := fun ha => by simp [hlst, htimer] at ha
    opened := fun hp => (hopened hp).imp_right fun ⟨h1, h2⟩ => ⟨h1, ⟨hlst, hdir, htimer⟩, h2⟩
    intent_ok := h.intent_ok
    last_code := h.last_code
    err_last := h.err_last
    status := h.status
    params_legal := h.params_legal }

theorem Inv.dir_rx (h : Inv s) (hs : ¬ s.sending) : s.dir = .rx := by
  cases hd : s.dir with
  | rx => rfl
  | tx => exact absurd (h.dir_tx.1 hd) hs

theorem Inv.rxdl_stopped (h : Inv s) (hr : ¬ s.receiving) : s.rxdl = .stopped := by
  cases hd : s.rxdl with
  | stopped => rfl
  | running => exact absurd (h.deadline.1 hd) hr

theorem Inv.txbuf_nil (h : Inv s) (hs : ¬ s.sending) : s.txbuf = [] :=
  by_contra fun hne => hs (h.tx_window hne)

theorem Inv.linkAtRest (h : Inv s) (hl : s.lst = .idle) (ht : s.timer = none) : LinkAtRest s where
  between := ⟨hl, h.dir_rx (not_sending_of_idle hl), ht⟩
  txbuf := h.txbuf_nil (not_sending_of_idle hl)
  rxdl := h.rxdl_stopped (not_receiving_of_idle hl)
  opened hp := (h.opened hp).imp_right fun ⟨h1, _, h2⟩ => ⟨h1, h2⟩
  accepted := h.accepted
  rx_window hne := (h.rx_window hne).resolve_left (by simp [hl])

/-- Nothing is in progress while no program runs. -/
theorem Inv.linkAtRest_of_not_busy (h : Inv s) (hb : s.busy = false) : LinkAtRest s := by
  have hidle : ¬ (s.lst ≠ .idle ∨ s.timer ≠ none) := fun ha => by simp [h.active_busy ha] at hb
  rw [not_or, not_not, not_not] at hidle
  exact h.linkAtRest hidle.1 hidle.2

/-- A running micro-operation that latches nothing finds no accepted body. -/
theorem Inv.rxres_ne_ok {u : UOp} (h : Inv s) (hb : s.busy = true) (hu : s.currentUop = some u)
    (h1 : u ≠ .ureport) (h2 : u ≠ .urdlatch) : s.rxres ≠ .ok := fun hr => by
  obtain ⟨hc | hc, _⟩ := h.accepted hr hb <;> rw [hu] at hc
  · exact h1 (Option.some.inj hc)
  · exact h2 (Option.some.inj hc)

theorem Inv.rxbuf_nil (h : Inv s) (hb : s.lst ≠ .body) (hr : s.rxres ≠ .ok) : s.rxbuf = [] :=
  by_contra fun hne => (h.rx_window hne).elim hb fun ⟨hok, _⟩ => hr hok

theorem Inv.opn_of_current {u : UOp} (h : Inv s) (hb : s.busy = true) (hu : s.currentUop = some u)
    (hne : ∀ i, u ≠ .uopen i) : s.opn = true := by
  refine (h.opened (phase_ne_of_busy hb).1).resolve_right fun ⟨_, _, i, hi⟩ => hne i ?_
  exact Option.some.inj (hu.symm.trans hi)

end

/-! ### Completion keeps the invariant -/

/-- A running micro-operation has had its effect, and `UPC` is to advance: the link is at rest but for
the body that was just accepted or just latched. -/
structure Completing (s : State) : Prop where
  loaded : Loaded s
  busy : s.busy = true
  running : s.upc < s.prog.length
  between : s.Between
  txbuf : s.txbuf = []
  rxdl : s.rxdl = .stopped
  opn : s.opn = true
  rxbuf : s.rxbuf = [] ∧ (s.rxres ≠ .ok ∨ s.upc + 1 = s.prog.length) ∨
    s.rxres = .ok ∧ State.AwaitsLatch { s with upc := s.upc + 1 }

/-- No state of a session sets the bit that `uREPORT` sets. -/
theorem completedBit_statusBit (prog : List (Seq × UOp)) (upc : Nat) :
    (completedBit prog upc).getLsbD 6 = false := by
  have hdone (t : Seq) : t.doneBit.getLsbD 6 = false := by cases t <;> rfl
  unfold completedBit
  split
  · split
    · rfl
    · exact hdone _
  · exact hdone _
  · rfl

theorem Loaded.of_completing {s : State} (h : Completing s) : Loaded (completeUop s) := by
  obtain ⟨hidle, hready⟩ := phase_ne_of_busy h.busy
  obtain ⟨hl, hrun⟩ := And.intro h.loaded (completeUop_running h.busy h.running)
  have hstatus : (completeUop s).doneMask.getLsbD 6 = s.doneMask.getLsbD 6 := by
    rw [hrun]
    dsimp only
    split
    · rw [BitVec.getLsbD_or, completedBit_statusBit, Bool.or_false]
    · rfl
  have hphase : (completeUop s).phase = .ready ∨ (completeUop s).phase = s.phase := by
    rw [hrun]
    dsimp only
    split
    · exact .inl rfl
    · exact .inr rfl
  exact {
    idle_empty := fun hp => by obtain hp' | hp' := hphase <;> simp_all
    session_tags := fun hp => by
      rw [completeUop_prog]
      exact hl.session_tags (by obtain hp' | hp' := hphase <;> simp_all)
    packets := by simpa using hl.packets
    latched := by simpa using hl.latched
    intent_ok := fun _ => by simpa using hl.intent_ok hidle
    last_code := by simpa using hl.last_code
    err_last := by simpa using hl.err_last
    status := by simpa only [hstatus, completeUop_st] using hl.status
    params_legal := by simpa using hl.params_legal }

theorem Completing.inv {s : State} (h : Completing s) : Inv (completeUop s) := by
  have hl := Loaded.of_completing h
  obtain ⟨_, hb, hlt, hbetween, htx, hdl, hopn, hbuf⟩ := h
  rw [completeUop_running hb hlt] at hl ⊢
  by_cases hlast : s.upc + 1 = s.prog.length
  · simp only [if_pos hlast] at hl ⊢
    have hnil : s.rxbuf = [] := by
      obtain ⟨hnil, _⟩ | ⟨_, hlatch, _⟩ := hbuf
      · exact hnil
      · simp [State.currentUop, hlast] at hlatch
    exact .of_rest hl hlt (fun hb' => by simp [State.busy] at hb')
      ⟨hbetween, htx, hdl, fun _ => .inl hopn, fun _ hb' => by simp [State.busy] at hb',
        fun hne => absurd hnil hne⟩
  · simp only [if_neg hlast] at hl ⊢
    refine .of_rest hl hlt (fun _ => Nat.lt_of_le_of_ne hlt hlast)
      ⟨hbetween, htx, hdl, fun _ => .inl hopn, ?_, ?_⟩
    · intro hok _
      obtain ⟨_, hno⟩ | ⟨_, hlatch⟩ := hbuf
      · exact absurd hno (not_or.2 ⟨not_not_intro hok, hlast⟩)
      · exact hlatch
    · intro hne
      obtain ⟨hnil, _⟩ | ⟨hok, _⟩ := hbuf
      · exact absurd hnil hne
      · exact ⟨hok, hb⟩

/-! ### Errors, refusals, calls -/

theorem ErrKind.code_produced {k : ErrKind} (hk : k ≠ .noResponse) :
    k.code = 1 ∨ k.code = 2 ∨ k.code = 4 ∨ k.code = 5 := by
  cases k <;> simp_all [ErrKind.code]

theorem ErrKind.bit_ne_zero {k : ErrKind} (hk : k ≠ .noResponse) : k.bit ≠ 0 := by
  cases k <;> simp_all [ErrKind.bit]

theorem ErrKind.code_ne_zero (k : ErrKind) : k.code ≠ 0 := by
  cases k <;> decide

section
variable {s : State}

/-- Recording an error keeps the invariant: its flag and its code go up together. -/
theorem Inv.recordError (h : Inv s) {k : ErrKind} (info : Byte) (e : OutEvent)
    (hk : k ≠ .noResponse) : Inv (recordError k info e s) where
  __ := h
  last_code := .inr (ErrKind.code_produced hk)
  err_last := iff_of_false (fun he => ErrKind.bit_ne_zero hk (BitVec.or_eq_zero_iff.1 he).2)
    (ErrKind.code_ne_zero k)

theorem Inv.raiseError (h : Inv s) {k : ErrKind} (info : Byte) (hk : k ≠ .noResponse) :
    Inv (raiseError k info s) :=
  h.recordError info _ hk

theorem Inv.phase_ready_link (h : Inv s) (hp : s.phase = .ready) :
    LinkAtRest s ∧ s.opn = true ∧ s.rxbuf = [] := by
  have hb : s.busy = false := by simp [State.busy, hp]
  have hrest := h.linkAtRest_of_not_busy hb
  refine ⟨hrest, (hrest.opened (by simp [hp])).resolve_right (by simp [hp]), ?_⟩
  exact by_contra fun hne => by simpa [hb] using hrest.rx_window hne

/-- A program as an accepted call loads it: not empty, its frames of legal length, its responses
latched. -/
structure Loadable (ops : List UOp) : Prop where
  ne_nil : ops ≠ []
  framed : ∀ u ∈ ops, u.Framed
  latched : responsesLatched ops

theorem Loadable.packets {l : List (Seq × UOp)} (h : Loadable (l.map Prod.snd)) :
    ∀ t pkt, (t, UOp.usend pkt) ∈ l → 8 ≤ pkt.length ∧ pkt.length ≤ 263 :=
  fun _ _ hm => requestFrame_length (h.framed _ (List.mem_map_of_mem hm))

theorem loadable_of_commandCall {i : Instr} {c : CmdCall} (h : commandCall s i = some c)
    (hl : c.lengthOk = true) : Loadable c.prog :=
  ⟨prog_ne_nil_of_commandCall h, framed_of_commandCall h hl, responsesLatched_of_commandCall h⟩

theorem loadable_sessionProgram (p : Params) (c : Intent) :
    Loadable ((sessionProgram p c).map Prod.snd) := by
  refine ⟨by simpa using sessionProgram_ne_nil p c, ?_, ?_⟩ <;> rw [map_snd_sessionProgram]
  · exact framed_sessionOps p c
  · exact responsesLatched_sessionOps p c

theorem Inv.acceptCmd {c : CmdCall} (h : Inv s) (hp : s.phase = .ready) (hc : Loadable c.prog) :
    Inv (acceptCmd c s) := by
  obtain ⟨⟨hbetween, htx, hdl, _, _, _⟩, hopn, hnil⟩ := h.phase_ready_link hp
  have hprog : Loadable ((Machine.acceptCmd c s).prog.map Prod.snd) := by simpa [Function.comp_def] using hc
  have hpos : 0 < (Machine.acceptCmd c s).prog.length := by
    simpa using List.length_pos_of_ne_nil hc.ne_nil
  refine .of_rest ?_ hpos.le (fun _ => hpos) ⟨hbetween, htx, hdl, fun _ => .inl hopn, nofun,
    fun hne => absurd hnil hne⟩
  exact {
    idle_empty := nofun
    session_tags := nofun
    packets := hprog.packets
    latched := hprog.latched
    intent_ok := fun _ => h.intent_ok (by simp [hp])
    last_code := h.last_code
    err_last := h.err_last
    status := h.status
    params_legal := h.params_legal }

theorem currentUop_acceptStart (c : Intent) (s : State) :
    ∃ i, (acceptStart c s).currentUop = some (.uopen i) := by
  rw [currentUop_eq, acceptStart_prog, map_snd_sessionProgram, acceptStart_upc, sessionOps]
  split
  · exact ⟨0, rfl⟩
  · exact ⟨_, rfl⟩

theorem Inv.acceptStart {c : Intent} (h : Inv s) (hp : s.phase = .idle)
    (hv : intentValid c = true) : Inv (acceptStart c s) := by
  have hb : s.busy = false := by simp [State.busy, hp]
  obtain ⟨hbetween, htx, hdl, _, _, hwindow⟩ := h.linkAtRest_of_not_busy hb
  have hnil : s.rxbuf = [] := by_contra fun hne => by simpa [hb] using hwindow hne
  have hprog := loadable_sessionProgram s.params c
  have hpos := List.length_pos_of_ne_nil (sessionProgram_ne_nil s.params c)
  refine .of_rest ?_ hpos.le (fun _ => hpos) ⟨hbetween, htx, hdl,
    fun _ => .inr ⟨rfl, currentUop_acceptStart c s⟩, nofun, fun hne => absurd hnil hne⟩
  exact {
    idle_empty := nofun
    session_tags := fun _ => ascendFrom_sessionProgram s.params c
    packets := hprog.packets
    latched := hprog.latched
    intent_ok := fun _ => hv
    last_code := h.last_code
    err_last := h.err_last
    status := h.status
    params_legal := h.params_legal }

theorem inv_reset : Inv State.reset := by
  refine .of_rest ?_ (by decide) (by decide)
    ⟨by decide, rfl, rfl, fun hp => absurd rfl hp, nofun, fun hne => absurd rfl hne⟩
  exact {
    idle_empty := fun _ => ⟨rfl, rfl⟩
    session_tags := nofun
    packets := nofun
    latched := trivial
    intent_ok := fun hp => absurd rfl hp
    last_code := .inl rfl
    err_last := by decide
    status := by decide
    params_legal := by decide }

theorem Inv.applyReset (h : Inv s) : Inv (applyReset s) where
  __ := inv_reset
  params_legal := h.params_legal

/-- Settles O58: nothing is loaded and nothing is in progress. -/
theorem resetSatisfiesInv : Obligations.ResetSatisfiesInv := by
  refine ⟨inv_reset, ?_⟩
  decide

theorem Inv.callCommand {i : Instr} {c : CmdCall} (h : Inv s) (hc : commandCall s i = some c) :
    Inv (callCommand c s) := by
  obtain ⟨_, he⟩ | ⟨_, _, he⟩ | ⟨_, _, _, he⟩ | ⟨_, _, _, _, he⟩ | ⟨hp, _, _, hl, he⟩ :=
    callCommand_cases c s <;> rw [he]
  · exact h.recordError _ _ nofun
  · exact h.recordError _ _ nofun
  · exact h.recordError _ _ nofun
  · exact h.recordError _ _ nofun
  · exact h.acceptCmd hp (loadable_of_commandCall hc hl)

theorem Inv.execSession (h : Inv s) (c : Intent) : ∃ t, execSession c s = .next t ∧ Inv t := by
  obtain ⟨_, he⟩ | ⟨_, _, he⟩ | ⟨_, _, _, he⟩ | ⟨hp, hv, he⟩ := execSession_cases c s <;>
    refine ⟨_, he, ?_⟩
  · exact h.recordError _ _ nofun
  · exact h.recordError _ _ nofun
  · exact h.recordError _ _ nofun
  · exact h.acceptStart hp hv

end

/-! ### The invariant inside a `uSEND` and inside a `uRECV` -/

/-- Inside a `uSEND` (41_link.md R151): the packet at `UPC` is being written or drained. -/
structure LinkSending (s : State) : Prop where
  sending : s.sending
  busy : s.busy = true
  packet : s.currentUop = some (.usend s.txbuf)
  opn : s.opn = true
  dir : s.dir = .tx
  timer : s.timer = none
  txn : s.txn = s.txbuf.length
  txi : s.txi ≤ s.txn
  drained : s.lst = .drain → s.txi = s.txn
  rxdl : s.rxdl = .stopped
  rxres : s.rxres ≠ .ok
  rxbuf : s.rxbuf = []

/-- Inside a `uRECV` (41_link.md R155): the header is hunted or a body below `RXN` bytes is staged. -/
structure LinkReceiving (s : State) : Prop where
  receiving : s.receiving
  busy : s.busy = true
  request : ∃ len : Byte, s.currentUop = some (.urecv len) ∧ s.rxn = 5 + len.toNat + 1
  opn : s.opn = true
  dir : s.dir = .rx
  timer : s.timer = none
  txbuf : s.txbuf = []
  rxdl : s.rxdl = .running
  rxres : s.rxres = .none
  body : s.lst = .body → s.rxi < s.rxn ∧ s.rxi = s.rxbuf.length
  hunt : s.lst ≠ .body → s.rxbuf = []

section
variable {s : State}

theorem lst_ne_body_of_sending (h : s.sending) : s.lst ≠ .body := by
  obtain h | h := h <;> simp [h]

theorem lst_ne_drain_of_receiving (h : s.receiving) : s.lst ≠ .drain := by
  obtain h | h | h := h <;> simp [h]

theorem lst_ne_idle_of_sending (h : s.sending) : s.lst ≠ .idle := by
  obtain h | h := h <;> simp [h]

theorem lst_ne_idle_of_receiving (h : s.receiving) : s.lst ≠ .idle := by
  obtain h | h | h := h <;> simp [h]

theorem Inv.timer_none (h : Inv s) (hl : s.lst ≠ .idle) : s.timer = none := by
  cases ht : s.timer with
  | none => rfl
  | some ms => exact absurd (h.window ms ht).1 hl

theorem Inv.linkSending (h : Inv s) (hs : s.sending) : LinkSending s := by
  have hl := lst_ne_idle_of_sending hs
  have hb := h.active_busy (.inl hl)
  obtain ⟨hu, htxn, htxi⟩ := h.send_regs hs
  have hrx := h.rxres_ne_ok hb hu nofun nofun
  exact ⟨hs, hb, hu, h.opn_of_current hb hu nofun, h.dir_tx.2 hs, h.timer_none hl, htxn, htxi,
    h.drain_txi, h.rxdl_stopped (not_receiving_of_sending hs), hrx,
    h.rxbuf_nil (lst_ne_body_of_sending hs) hrx⟩

theorem Inv.linkReceiving (h : Inv s) (hr : s.receiving) : LinkReceiving s := by
  have hl := lst_ne_idle_of_receiving hr
  have hb := h.active_busy (.inl hl)
  have hs := not_sending_of_receiving hr
  obtain ⟨⟨len, hu, hrxn⟩, hres⟩ := h.recv_regs hr
  exact ⟨hr, hb, ⟨len, hu, hrxn⟩, h.opn_of_current hb hu nofun, h.dir_rx hs, h.timer_none hl,
    h.txbuf_nil hs, h.deadline.2 hr, hres, h.body_regs, fun hne => h.rxbuf_nil hne (by simp [hres])⟩

theorem Inv.of_sending (h : Loaded s) (hs : LinkSending s) : Inv s := by
  obtain ⟨hs, hb, hu, ho, hd, ht, htxn, htxi, hdrain, hstop, hrx, hnil⟩ := hs
  have hr := not_receiving_of_sending hs
  exact {
    __ := h
    upc_le := (currentUop_lt hu).le
    busy_upc := fun _ => currentUop_lt hu
    session_tags := fun hp => ⟨(h.session_tags hp).ascending, (h.session_tags hp).bounds⟩
    dir_tx := iff_of_true hd hs
    send_regs := fun _ => ⟨hu, htxn, htxi⟩
    tx_window := fun _ => hs
    drain_txi := hdrain
    recv_regs := fun hr' => absurd hr' hr
    body_regs := fun hl => absurd hl (lst_ne_body_of_sending hs)
    accepted := fun hok => absurd hok hrx
    rx_window := fun hne => absurd hnil hne
    deadline := iff_of_false (by simp [hstop]) hr
    window := fun ms hms => by simp [ht] at hms
    active_busy := fun _ => hb
    opened := fun _ => .inl ho }

theorem Inv.of_receiving (h : Loaded s) (hr : LinkReceiving s) : Inv s := by
  obtain ⟨hr, hb, ⟨len, hu, hrxn⟩, ho, hd, ht, htx, hrun, hres, hbody, hhunt⟩ := hr
  have hs := not_sending_of_receiving hr
  exact {
    __ := h
    upc_le := (currentUop_lt hu).le
    busy_upc := fun _ => currentUop_lt hu
    session_tags := fun hp => ⟨(h.session_tags hp).ascending, (h.session_tags hp).bounds⟩
    dir_tx := iff_of_false (by simp [hd]) hs
    send_regs := fun hs' => absurd hs' hs
    tx_window := fun hne => absurd htx hne
    drain_txi := fun hl => absurd hl (lst_ne_drain_of_receiving hr)
    recv_regs := fun _ => ⟨⟨len, hu, hrxn⟩, hres⟩
    body_regs := hbody
    accepted := fun hok => by simp [hres] at hok
    rx_window := fun hne => .inl (by_contra fun hl => hne (hhunt hl))
    deadline := iff_of_true hrun hr
    window := fun ms hms => by simp [ht] at hms
    active_busy := fun _ => hb
    opened := fun _ => .inl ho }

/-! ### A micro-operation begins -/

theorem Inv.beginSend {pkt : List Byte} (h : Inv s) (hb : s.busy = true) (hs : s.Between)
    (hu : s.currentUop = some (.usend pkt)) : Inv (beginSend pkt s) := by
  obtain ⟨hlst, _, htimer⟩ := hs
  have hrx := h.rxres_ne_ok hb hu nofun nofun
  refine .of_sending { __ := h.loaded } ⟨.inl rfl, hb, hu, h.opn_of_current hb hu nofun, rfl, htimer,
    rfl, Nat.zero_le _, nofun, ?_, hrx, h.rxbuf_nil (by simp [hlst]) hrx⟩
  exact h.rxdl_stopped (not_receiving_of_idle hlst)

theorem Inv.beginReceive {len : Byte} (h : Inv s) (hb : s.busy = true) (hs : s.Between)
    (hu : s.currentUop = some (.urecv len)) : Inv (beginReceive len s) := by
  obtain ⟨hlst, hdir, htimer⟩ := hs
  have hrx := h.rxres_ne_ok hb hu nofun nofun
  exact .of_receiving { __ := h.loaded } ⟨.inl rfl, hb, ⟨len, hu, rfl⟩,
    h.opn_of_current hb hu nofun, hdir, htimer, h.txbuf_nil (not_sending_of_idle hlst), rfl, rfl, nofun,
    fun _ => h.rxbuf_nil (by simp [hlst]) hrx⟩

theorem Inv.beginWait {ms : Nat} (h : Inv s) (hb : s.busy = true) (hs : s.Between)
    (hu : s.currentUop = some (.uwait ms)) : Inv (beginWait ms s) where
  __ := h
  window _ hms := ⟨hs.1, Option.some.inj hms ▸ hu⟩
  active_busy _ := hb
  opened _ := .inl (h.opn_of_current hb hu nofun)

/-! ### A micro-operation completes at once -/

theorem openTransport_eq (i : BaudIdx) (s : State) : openTransport i s =
    { s with
      opn := true
      curBaud := i
      trace := s.trace ++ ((if s.opn then [.closed] else []) ++ [.opened i]) } := by
  cases ho : s.opn <;> simp [openTransport, emit, ho]

theorem Inv.reopen {i : BaudIdx} (h : Inv s) (hb : s.busy = true) (hs : s.Between)
    (hu : s.currentUop = some (.uopen i)) : Inv (completeUop (openTransport i s)) := by
  have hidle := (phase_ne_of_busy hb).1
  have hrx := h.rxres_ne_ok hb hu nofun nofun
  have hrest := h.linkAtRest hs.1 hs.2.2
  rw [openTransport_eq]
  exact Completing.inv ⟨{ __ := h.loaded, idle_empty := fun hp => absurd hp hidle }, hb,
    currentUop_lt hu, hs, hrest.txbuf, hrest.rxdl, rfl, .inl ⟨h.rxbuf_nil (by simp [hs.1]) hrx, .inl hrx⟩⟩

theorem Inv.runBaud {i : BaudIdx} (h : Inv s) (hb : s.busy = true) (hs : s.Between)
    (hu : s.currentUop = some (.ubaud i)) : Inv (runBaud i s) := by
  have hrx := h.rxres_ne_ok hb hu nofun nofun
  have hrest := h.linkAtRest hs.1 hs.2.2
  exact Completing.inv ⟨{ __ := h.loaded }, hb, currentUop_lt hu, hs, hrest.txbuf, hrest.rxdl,
    h.opn_of_current hb hu nofun, .inl ⟨h.rxbuf_nil (by simp [hs.1]) hrx, .inl hrx⟩⟩

/-- A latch ends its program, and with it the window of `RXBUF`. -/
theorem Inv.completing_latch {u : UOp} (h : Inv s) (hb : s.busy = true) (hs : s.Between)
    (hu : s.currentUop = some u) (hlatch : u = .ureport ∨ u = .urdlatch) :
    Completing (dropRxbuf s) := by
  have hrest := h.linkAtRest hs.1 hs.2.2
  have hlast : s.prog.length = s.upc + 1 := by
    rw [currentUop_eq] at hu
    simpa using length_of_latch h.latched hlatch hu
  have hne : ∀ i, u ≠ .uopen i := by rintro i rfl; simp at hlatch
  exact ⟨{ __ := h.loaded }, hb, currentUop_lt hu, hs, hrest.txbuf, hrest.rxdl,
    h.opn_of_current hb hu hne, .inl ⟨rfl, .inr hlast.symm⟩⟩

theorem getLsbD_or_statusDoneBit (m : BitVec 7) : (m ||| statusDoneBit).getLsbD 6 = true := by
  rw [BitVec.getLsbD_or]
  exact Bool.or_true _

theorem Inv.runReport (h : Inv s) (hb : s.busy = true) (hs : s.Between)
    (hu : s.currentUop = some .ureport) : Inv (runReport s) := by
  have hc := h.completing_latch hb hs hu (.inl rfl)
  unfold Machine.runReport
  split
  · exact Completing.inv
      { __ := hc
        loaded := {
          __ := h.loaded
          status := ⟨iff_of_true rfl (getLsbD_or_statusDoneBit _), fun _ => rfl⟩ } }
  · exact hc.inv

theorem Inv.runRdlatch (h : Inv s) (hb : s.busy = true) (hs : s.Between)
    (hu : s.currentUop = some .urdlatch) : Inv (runRdlatch s) := by
  have hc := h.completing_latch hb hs hu (.inr rfl)
  unfold Machine.runRdlatch
  split
  · exact Completing.inv { __ := hc, loaded := { __ := h.loaded } }
  · exact hc.inv

/-! ### The link engine goes on -/

theorem Inv.txMove (h : Inv s) (hl : s.lst = .tx) : Inv (txMove s) := by
  have hs := h.linkSending (.inl hl)
  unfold Machine.txMove
  split
  · next hlt =>
    exact .of_sending { __ := h.loaded }
      { __ := hs, txi := hlt, drained := fun hd => by simp [hl] at hd }
  · next hge =>
    exact .of_sending { __ := h.loaded }
      { __ := hs
        sending := .inr rfl
        drained := fun _ => Nat.le_antisymm hs.txi (Nat.le_of_not_lt hge) }

theorem Inv.takeDrained (h : Inv s) : Inv (takeDrained s) := by
  obtain ⟨hl, he⟩ | ⟨_, he⟩ := takeDrained_cases s <;> rw [he]
  · obtain ⟨_, hb, hu, ho, _, ht, _, _, _, hstop, hrx, hnil⟩ := h.linkSending (.inr hl)
    exact Completing.inv ⟨{ __ := h.loaded }, hb, currentUop_lt hu, ⟨rfl, rfl, ht⟩, rfl, hstop, ho,
      .inl ⟨hnil, .inl hrx⟩⟩
  · exact h

/-- A `uRECV` is followed by the latch of its result. -/
theorem Inv.next_latches {len : Byte} (h : Inv s) (hu : s.currentUop = some (.urecv len)) :
    let next := State.currentUop { s with upc := s.upc + 1 }
    next = some .ureport ∨ next = some .urdlatch := by
  rw [currentUop_eq] at hu
  have hhead : (s.prog.map Prod.snd)[s.upc + 1]? = ((s.prog.map Prod.snd).drop (s.upc + 1))[0]? := by
    simp
  simp only [currentUop_eq, hhead]
  obtain hd | hd := drop_of_urecv h.latched hu <;> simp [hd]

theorem Inv.endReceive_timeout (h : Inv s) (hr : s.receiving) :
    Inv (endReceive .timeout (dropRxbuf s)) := by
  obtain ⟨_, hb, ⟨_, hu, _⟩, ho, hd, ht, htx, _, _, _, _⟩ := h.linkReceiving hr
  exact Completing.inv ⟨{ __ := h.loaded }, hb, currentUop_lt hu, ⟨rfl, hd, ht⟩, htx, rfl, ho,
    .inl ⟨rfl, .inl nofun⟩⟩

/-- A discarded body leaves the hunt begun again, wherever the staging had come to. -/
theorem Inv.resumeHunt (h : Inv s) (hr : s.receiving) (k : Nat) :
    Inv { dropRxbuf s with rxi := k, lst := .hunt1 } :=
  .of_receiving { __ := h.loaded }
    { __ := h.linkReceiving hr, receiving := .inl rfl, body := nofun, hunt := fun _ => rfl }

/-- The deadline ends a `uRECV`, whatever was staged. -/
theorem Inv.takeTimeout (h : Inv s) : Inv (takeTimeout s) := by
  obtain ⟨hr, info, he⟩ | ⟨_, he⟩ := takeTimeout_cases s <;> rw [he]
  · exact (h.raiseError (k := .headerSyncTimeout) info nofun).endReceive_timeout hr
  · exact h

/-- The byte staged at `RXN - 1` completes the body, which is checked. -/
theorem Inv.checkBody {b : Byte} (h : Inv s) (hl : s.lst = .body) (hlast : ¬ s.rxi + 1 < s.rxn) :
    Inv (checkBody (stageByte b s)) := by
  have hr := h.linkReceiving (.inr (.inr hl))
  obtain ⟨hlt, hlen⟩ := hr.body hl
  obtain ⟨len, hu, hrxn⟩ := hr.request
  have hfull : s.rxbuf.length + 1 = s.rxn := by omega
  have hstaged : (stageByte b s).rxbuf.take (stageByte b s).rxn = s.rxbuf ++ [b] := by
    rw [stageByte, hlen, List.take_length]
    exact List.take_of_length_le (by simp [hfull])
  obtain ⟨f, hf, he⟩ | ⟨_, he⟩ := checkBody_cases (stageByte b s) <;> rw [he]
  · rw [hstaged] at hf
    have hbuf : (stageByte b s).rxbuf = s.rxbuf ++ [b] := by rw [stageByte, hlen, List.take_length]
    refine Completing.inv ⟨{ __ := h.loaded }, hr.busy, currentUop_lt hu, ⟨rfl, hr.dir, hr.timer⟩,
      hr.txbuf, rfl, hr.opn, .inr ⟨rfl, h.next_latches hu, ?_, ?_, f, ?_⟩⟩
    · exact (congrArg List.length hbuf).trans (by simpa using hfull)
    · exact hrxn ▸ by omega
    · exact (congrArg decodeBody hbuf).trans hf
  · exact (h.raiseError (k := .checksumMismatch) 0 nofun).resumeHunt (.inr (.inr hl)) (s.rxi + 1)

theorem Inv.takeByte (h : Inv s) (b : Byte) : Inv (takeByte b s) := by
  unfold Machine.takeByte
  split
  · next hl =>
    have hr := h.linkReceiving (.inl hl)
    split
    · exact .of_receiving { __ := h.loaded }
        { __ := hr, receiving := .inr (.inl rfl), body := nofun, hunt := fun _ => hr.hunt (by simp [hl]) }
    · exact h
  · next hl =>
    have hr := h.linkReceiving (.inr (.inl hl))
    have hnil := hr.hunt (by simp [hl])
    have hpos : 0 < s.rxn := by
      obtain ⟨len, _, hrxn⟩ := hr.request
      omega
    split_ifs
    · exact .of_receiving { __ := h.loaded }
        { __ := hr
          receiving := .inr (.inr rfl)
          body := fun _ => ⟨hpos, (congrArg List.length hnil).symm⟩
          hunt := fun _ => hnil }
    · exact h
    · exact .of_receiving { __ := h.loaded }
        { __ := hr, receiving := .inl rfl, body := nofun, hunt := fun _ => hnil }
  · next hl =>
    have hr := h.linkReceiving (.inr (.inr hl))
    obtain ⟨hlt, hlen⟩ := hr.body hl
    split
    · next hmore =>
      refine .of_receiving { __ := h.loaded }
        { __ := hr, body := fun _ => ⟨hmore, ?_⟩, hunt := fun hne => absurd hl hne }
      simp [stageByte, hlen]
    · next hlast => exact h.checkBody hl hlast
  · exact h
  · exact h
  · exact h

theorem Inv.rxMove (h : Inv s) : Inv (rxMove s) := by
  unfold Machine.rxMove
  split
  · exact h
  · next b rest _ =>
    have h' : Inv { s with rxFifo := rest } := { __ := h }
    exact h'.takeByte b

theorem Inv.timerMove (h : Inv s) : Inv (timerMove s) := by
  unfold Machine.timerMove
  split
  · next ms ht =>
    obtain ⟨hl, hu⟩ := h.window ms ht
    have hb := h.active_busy (.inr (by simp [ht]))
    have hrx := h.rxres_ne_ok hb hu nofun nofun
    exact Completing.inv ⟨{ __ := h.loaded }, hb, currentUop_lt hu,
      ⟨hl, h.dir_rx (not_sending_of_idle hl), rfl⟩, h.txbuf_nil (not_sending_of_idle hl),
      h.rxdl_stopped (not_receiving_of_idle hl), h.opn_of_current hb hu nofun,
      .inl ⟨h.rxbuf_nil (by simp [hl]) hrx, .inl hrx⟩⟩
  · exact h

theorem Inv.engineMove (h : Inv s) : Inv (engineMove s) := by
  unfold Machine.engineMove
  split
  · next hl => exact h.txMove hl
  · exact h
  · exact h.rxMove
  · exact h.rxMove
  · exact h.rxMove
  · exact h.timerMove

/-! ### Every step -/

/-- The framer's move finds the precondition of its micro-operation true, and keeps the invariant. -/
theorem Inv.framerMove (h : Inv s) : ∃ t, framerMove s = .next t ∧ Inv t := by
  cases hf : fetchUop s with
  | none => exact ⟨_, framerMove_none hf, h.engineMove⟩
  | some u =>
    obtain ⟨hb, hl, ht, hu⟩ := fetchUop_some hf
    obtain ⟨hs, _⟩ := h.linkAtRest hl ht
    cases u with
    | uopen i => exact ⟨_, (framerMove_uopen hf).trans (if_pos hs), h.reopen hb hs hu⟩
    | usend pkt =>
      have ho := h.opn_of_current hb hu nofun
      exact ⟨_, (framerMove_usend hf).trans ((if_pos hs).trans (if_pos ho)), h.beginSend hb hs hu⟩
    | urecv len => exact ⟨_, (framerMove_urecv hf).trans (if_pos hs), h.beginReceive hb hs hu⟩
    | uwait ms => exact ⟨_, (framerMove_uwait hf).trans (if_pos hs), h.beginWait hb hs hu⟩
    | ubaud i => exact ⟨_, framerMove_ubaud hf, h.runBaud hb hs hu⟩
    | ureport => exact ⟨_, framerMove_ureport hf, h.runReport hb hs hu⟩
    | urdlatch => exact ⟨_, framerMove_urdlatch hf, h.runRdlatch hb hs hu⟩

theorem Inv.exec_command {i : Instr} (h : Inv s) (hi : i.isCommand = true) :
    ∃ t, exec i s = .next t ∧ Inv t := by
  obtain ⟨c, hc, he⟩ := Machine.exec_command hi s
  exact ⟨_, he, h.callCommand hc⟩

/-- A step from a state of the invariant answers one of the invariant, or its input is none of the
spec's. -/
theorem Inv.step (h : Inv s) : (∃ t, step s = .next t ∧ Inv t) ∨ ∃ r, step s = .refused r := by
  cases hi : s.inbox with
  | nil => exact .inl (step_nil hi ▸ h.framerMove)
  | cons e rest =>
    have h' : Inv { s with inbox := rest } := { __ := h }
    cases e with
    | tick => exact .inl (step_tick hi ▸ h'.framerMove)
    | reset => exact .inl ⟨_, step_reset hi, h'.applyReset⟩
    | start c => exact .inl (step_start hi ▸ h'.execSession c)
    | cmd i =>
      cases hk : i.isCommand with
      | true => exact .inl (step_cmd hi hk ▸ h'.exec_command hk)
      | false => exact .inr ⟨.notACommand, by simp [Machine.step, hi, hk]⟩
    | frame bs =>
      cases hd : decode s.params bs with
      | ok i =>
        rw [step_frame hi hd]
        obtain hk | ⟨id, flags, addr, len, count, payload, rfl⟩ := decode_ok_kind hd
        · exact .inl (h'.exec_command hk)
        · exact .inl ⟨_, rfl, { __ := h }⟩
      | error e => exact .inr ⟨.undecodable e, by simp [Machine.step, hi, hd]⟩
    | drained => exact .inl ⟨_, step_drained hi, h'.takeDrained⟩
    | rx b => exact .inl ⟨_, step_rx hi, { __ := h }⟩
    | rxTimeout => exact .inl ⟨_, step_rxTimeout hi, h'.takeTimeout⟩

end

/-- Settles O59: a step that answers a next state answers one of the invariant. -/
theorem everyStepKeepsInv : Obligations.EveryStepKeepsInv := by
  intro s t h ht
  obtain ⟨t', ht', hinv⟩ | ⟨r, hr⟩ := h.step
  · cases ht.symm.trans ht'
    exact hinv
  · cases ht.symm.trans hr

/-- Settles O60: a step from a state of the invariant answers a next state or refuses its input. -/
theorem stepNeverFaults : Obligations.StepNeverFaults := by
  intro s r h hf
  obtain ⟨t, ht, _⟩ | ⟨r', hr⟩ := h.step
  · cases hf.symm.trans ht
  · cases hf.symm.trans hr

end Sys2Proof.Machine
end

section
/-! PROOFS. The link engine of 41_link.md, row by row: how its operations begin (O23, O24, O27, O32, O33),
the hunt and the staging (O28, O29), the deadline (O30), responses on the line (O34); the completion of a
micro-operation (O36); the two latches (O39, O40). -/

namespace Sys2Proof.Machine

/-! ### Beginning a link operation -/

section
variable {s : State}

theorem execReopen_of_between (h : s.Between) (i : BaudIdx) :
    execReopen i s = .next (completeUop (openTransport i s)) := if_pos h

theorem execSend_of_between (h : s.Between) (ho : s.opn = true) (pkt : List Byte) :
    execSend pkt s = .next (beginSend pkt s) := (if_pos h).trans (if_pos ho)

theorem execReceive_of_between (h : s.Between) (len : Byte) :
    execReceive len s = .next (beginReceive len s) := if_pos h

theorem execWait_of_between (h : s.Between) (ms : Nat) :
    execWait ms s = .next (beginWait ms s) := if_pos h

end

/-- Settles O23: closing and opening at once is one change of the Transport's registers. -/
theorem reopenEffect : Obligations.ReopenEffect := by
  intro s i hl hd ht
  rw [← openTransport_eq]
  exact execReopen_of_between ⟨hl, hd, ht⟩ i

/-- Settles O24. -/
theorem sendBegins : Obligations.SendBegins :=
  fun _ pkt hl hd ht ho => execSend_of_between ⟨hl, hd, ht⟩ ho pkt

/-- Settles O27. -/
theorem receiveBegins : Obligations.ReceiveBegins :=
  fun _ len hl hd ht => execReceive_of_between ⟨hl, hd, ht⟩ len

/-- Settles O33: the preconditions are tested first. -/
theorem linkPreconditionFaults : Obligations.LinkPreconditionFaults :=
  fun _ _ _ _ _ => ⟨fun h => ⟨if_neg h, if_neg h, if_neg h, if_neg h⟩,
    fun h ho => (if_pos h).trans (if_neg (by simp [ho]))⟩

/-- Settles O34: the bytes are those of `responseFrame`. -/
theorem responseBytesAreQueued : Obligations.ResponseBytesAreQueued :=
  fun _ _ _ _ _ _ _ => rfl

/-! ### The framer's move while a micro-operation is in progress -/

section
variable {s : State}

theorem framerMove_of_tx (h : s.lst = .tx) : framerMove s = .next (txMove s) := by
  rw [framerMove_none (fetchUop_of_link_active (by simp [h])), engineMove, h]

theorem framerMove_of_drain (h : s.lst = .drain) : framerMove s = .next s := by
  rw [framerMove_none (fetchUop_of_link_active (by simp [h])), engineMove, h]

theorem engineMove_of_receiving (h : s.receiving) : engineMove s = rxMove s := by
  obtain h | h | h := h <;> rw [engineMove, h]

theorem framerMove_of_receiving (h : s.receiving) : framerMove s = .next (rxMove s) := by
  rw [framerMove_none (fetchUop_of_link_active (lst_ne_idle_of_receiving h)),
    engineMove_of_receiving h]

theorem framerMove_of_timer {ms : Nat} (hl : s.lst = .idle) (ht : s.timer = some ms) :
    framerMove s = .next (completeUop { s with timer := none }) := by
  simp only [framerMove_none (fetchUop_of_timer ht), engineMove, hl, timerMove, ht]

/-- Inside a `uRECV` the framer takes the oldest received byte. -/
theorem framerMove_of_byte {b : Byte} {rest : List Byte} (h : s.receiving)
    (hq : s.rxFifo = b :: rest) :
    framerMove s = .next (takeByte b { s with rxFifo := rest }) := by
  simp only [framerMove_of_receiving h, rxMove, hq]

theorem framerMove_of_no_byte (h : s.receiving) (hq : s.rxFifo = []) : framerMove s = .next s := by
  simp only [framerMove_of_receiving h, rxMove, hq]

end

/-- Settles O32: one row begins the window, the timer's row ends it. -/
theorem waitWindow : Obligations.WaitWindow :=
  ⟨fun _ ms hl hd ht => execWait_of_between ⟨hl, hd, ht⟩ ms,
    fun _ _ hl ht hi => (step_nil hi).trans (framerMove_of_timer hl ht)⟩

/-! ### The rows of a received byte -/

section
variable {s : State} {b : Byte}

theorem takeByte_hunt1 (hl : s.lst = .hunt1) :
    takeByte b s = if b = hRsp1 then { s with lst := .hunt2 } else s := by
  simp only [takeByte, hl]

theorem takeByte_hunt2 (hl : s.lst = .hunt2) :
    takeByte b s = if b = hRsp2 then { s with lst := .body, rxi := 0 }
      else if b = hRsp1 then s else { s with lst := .hunt1 } := by
  simp only [takeByte, hl]

theorem takeByte_body (hl : s.lst = .body) :
    takeByte b s = if s.rxi + 1 < s.rxn then stageByte b s else checkBody (stageByte b s) := by
  simp only [takeByte, hl]

end

/-- Settles O28: with no input the framer takes the byte, by the row of its state. -/
theorem headerHuntTable : Obligations.HeaderHuntTable := by
  intro s b rest hi hq
  have hunt1 (hl : s.lst = .hunt1) :=
    ((step_nil hi).trans (framerMove_of_byte (.inl hl) hq)).trans
      (congrArg _ (takeByte_hunt1 (s := { s with rxFifo := rest }) hl))
  have hunt2 (hl : s.lst = .hunt2) :=
    ((step_nil hi).trans (framerMove_of_byte (.inr (.inl hl)) hq)).trans
      (congrArg _ (takeByte_hunt2 (s := { s with rxFifo := rest }) hl))
  have hne (hb : b = hRsp1) : b ≠ hRsp2 := by rw [hb]; decide
  exact ⟨fun hl hb => (hunt1 hl).trans (congrArg _ (if_pos hb)),
    fun hl hb => (hunt1 hl).trans (congrArg _ (if_neg hb)),
    fun hl hb => (hunt2 hl).trans (congrArg _ (if_pos hb)),
    fun hl hb => (hunt2 hl).trans (congrArg _ ((if_neg (hne hb)).trans (if_pos hb))),
    fun hl hb hb' => (hunt2 hl).trans (congrArg _ ((if_neg hb).trans (if_neg hb')))⟩

theorem checkBody_of_ok {s : State} {f : Fields} (h : decodeBody (s.rxbuf.take s.rxn) = .ok f) :
    checkBody s = endReceive .ok s := by
  obtain ⟨_, _, he⟩ | ⟨hno, _⟩ := checkBody_cases s
  · exact he
  · exact absurd h (hno f)

theorem checkBody_of_not_ok {s : State} (h : ∀ f, decodeBody (s.rxbuf.take s.rxn) ≠ .ok f) :
    checkBody s = { dropRxbuf (raiseError .checksumMismatch 0 s) with lst := .hunt1 } := by
  obtain ⟨f, hf, _⟩ | ⟨_, he⟩ := checkBody_cases s
  · exact absurd hf (h f)
  · exact he

/-- Settles O29: the staged byte is the last one or not, and the body then passes or not. -/
theorem stagingAndCheck : Obligations.StagingAndCheck := by
  intro s b rest hi hq hl hlen body staged
  have hstep : step s = .next (if s.rxi + 1 < s.rxn then staged else checkBody staged) :=
    ((step_nil hi).trans (framerMove_of_byte (.inr (.inr hl)) hq)).trans
      (congrArg _ (takeByte_body hl))
  have hlast (h : s.rxi + 1 = s.rxn) : ¬ s.rxi + 1 < s.rxn := by omega
  have htake (h : s.rxi + 1 = s.rxn) : body.take s.rxn = body :=
    List.take_of_length_le (by simp [body]; omega)
  refine ⟨fun hmore => ?_, fun h ⟨f, hf⟩ => ?_, fun h hno => ?_⟩
  · rw [hstep, if_pos hmore]
  · rw [hstep, if_neg (hlast h), checkBody_of_ok (s := staged) ((congrArg _ (htake h)).trans hf)]
    rfl
  · rw [hstep, if_neg (hlast h), checkBody_of_not_ok (s := staged) fun f hf =>
      hno f ((congrArg _ (htake h)).symm.trans hf)]
    rfl

/-! ### The deadline -/

/-- What the deadline does to a `uRECV`, with the information of its error. -/
theorem endReceive_timeout_eq (info : Byte) (s : State) :
    endReceive .timeout (dropRxbuf (raiseError .headerSyncTimeout info s)) = completeUop
      { s with
        err := s.err ||| 0b0010
        lasterr := ⟨2, info⟩
        trace := s.trace ++ [.err 2 info]
        rxres := .timeout
        rxbuf := []
        freeCtr := s.freeCtr + 1
        rxdl := .stopped
        lst := .idle } :=
  congrArg completeUop rfl

theorem takeTimeout_of_hunt {s : State} (h : s.lst = .hunt1 ∨ s.lst = .hunt2) :
    takeTimeout s = endReceive .timeout (dropRxbuf (raiseError .headerSyncTimeout 0 s)) := by
  obtain h | h := h <;> rw [takeTimeout, h]

theorem takeTimeout_of_body {s : State} (h : s.lst = .body) :
    takeTimeout s = endReceive .timeout (dropRxbuf (raiseError .headerSyncTimeout 1 s)) := by
  rw [takeTimeout, h]

/-- Settles O30: the information says whether a body was being staged. -/
theorem timeoutEndsReceive : Obligations.TimeoutEndsReceive := by
  intro s rest hi hr
  rw [step_rxTimeout hi]
  rcases (or_assoc.2 hr : (s.lst = .hunt1 ∨ s.lst = .hunt2) ∨ s.lst = .body) with hl | hl
  · refine ⟨0, fun _ => rfl, fun hb => by simp [hb] at hl, ?_⟩
    rw [takeTimeout_of_hunt (s := { s with inbox := rest }) hl, endReceive_timeout_eq]
  · refine ⟨1, fun hh => by simp [hl] at hh, fun _ => rfl, ?_⟩
    rw [takeTimeout_of_body (s := { s with inbox := rest }) hl, endReceive_timeout_eq]

/-! ### Completion -/

/-- The bit of a completing micro-operation with tag `tag`, by the tag of the next. -/
theorem completedBit_eq {prog : List (Seq × UOp)} {upc : Nat} {tag : Seq} {u : UOp}
    (h : prog[upc]? = some (tag, u)) :
    completedBit prog upc =
      if prog[upc + 1]?.map Prod.fst = some tag then 0 else tag.doneBit := by
  unfold completedBit
  rw [h]
  cases hn : prog[upc + 1]? with
  | none => simp
  | some e => simp [eq_comm]

/-- Settles O36: the mask is that of the completing entry's tag in a session, and stays in a command. -/
theorem microOperationCompletes : Obligations.MicroOperationCompletes := by
  intro s tag u hb hu
  obtain ⟨hlt, _⟩ := List.getElem?_eq_some_iff.1 hu
  refine ⟨_, completeUop_running hb hlt, fun hp hne => ?_, fun hkeep => ?_⟩
  · rw [if_pos hp, completedBit_eq hu, if_neg hne]
  · split
    · next hp =>
      have hsame := hkeep.resolve_left (by simp [hp])
      rw [completedBit_eq hu, if_pos hsame]
      exact BitVec.or_zero
    · rfl

/-! ### The latches of a response -/

theorem rxAt_of_getElem? {s : State} {k : Nat} {b : Byte} (h : s.rxbuf[k]? = some b) :
    s.rxAt k = b := by
  rw [State.rxAt, h]
  rfl

/-- Settles O39: `RXBUF[5]` to `RXBUF[8]` are the four status bytes. -/
theorem reportSurfacesStatus : Obligations.ReportSurfacesStatus := by
  intro s hb ⟨hl, _, ht⟩ hu hi
  have hstep : step s = .next (runReport s) :=
    (step_nil hi).trans (framerMove_ureport (fetchUop_of_current hb hl ht hu))
  refine ⟨fun b0 b1 b2 b3 b4 i r b d rest hok hbuf => ⟨delayUs d, toNat_delayUs d, ?_⟩, fun hno => ?_⟩
  · have h5 : s.rxAt 5 = i := rxAt_of_getElem? (by rw [hbuf]; rfl)
    have h6 : s.rxAt 6 = r := rxAt_of_getElem? (by rw [hbuf]; rfl)
    have h7 : s.rxAt 7 = b := rxAt_of_getElem? (by rw [hbuf]; rfl)
    have h8 : s.rxAt 8 = d := rxAt_of_getElem? (by rw [hbuf]; rfl)
    rw [hstep, runReport, if_pos hok, h5, h6, h7, h8]
    rfl
  · rw [hstep, runReport, if_neg hno]
    rfl

/-- The payload of a body of `RXN` bytes is what stands between its fields and its checksum. -/
theorem payloadOf_eq {s : State} {fields payload rest : List Byte} (h5 : fields.length = 5)
    (hbuf : s.rxbuf = fields ++ payload ++ rest) (hn : s.rxn = 5 + payload.length + 1) :
    payloadOf s = payload := by
  have hlen : s.rxn - 6 = payload.length := by omega
  refine List.ext_getElem (by simp [payloadOf, hlen]) fun k hk hk' => ?_
  simp only [payloadOf, List.getElem_map, List.getElem_range]
  refine rxAt_of_getElem? ?_
  rw [hbuf, List.append_assoc, List.getElem?_append_right (by omega), h5, Nat.add_sub_cancel_left,
    List.getElem?_append_left hk', List.getElem?_eq_getElem hk']

/-- Settles O40: `RXBUF[0]` to `RXBUF[4]` are the field bytes, and the payload follows them. -/
theorem readLatchSurfacesResponse : Obligations.ReadLatchSurfacesResponse := by
  intro s hb ⟨hl, _, ht⟩ hu hi
  have hstep : step s = .next (runRdlatch s) :=
    (step_nil hi).trans (framerMove_urdlatch (fetchUop_of_current hb hl ht hu))
  refine ⟨fun i f a l c payload rest hok hbuf hn => ?_, fun hno => ?_⟩
  · have h0 : s.rxAt 0 = i := rxAt_of_getElem? (by rw [hbuf]; rfl)
    have h1 : s.rxAt 1 = f := rxAt_of_getElem? (by rw [hbuf]; rfl)
    have h2 : s.rxAt 2 = a := rxAt_of_getElem? (by rw [hbuf]; rfl)
    have h3 : s.rxAt 3 = l := rxAt_of_getElem? (by rw [hbuf]; rfl)
    have h4 : s.rxAt 4 = c := rxAt_of_getElem? (by rw [hbuf]; rfl)
    rw [hstep, runRdlatch, if_pos hok, h0, h1, h2, h3, h4, payloadOf_eq rfl hbuf hn]
    rfl
  · rw [hstep, runRdlatch, if_neg hno]
    rfl

end Sys2Proof.Machine
end

section
/-! PROOFS. What steps leave unchanged: the program under the line's inputs (O52), the sticky flags (O53),
the phases (O54), `SEQ` (O55), the direction of the line (O35). -/

namespace Sys2Proof.Machine

/-! ### Sticky registers -/

/-- No flag, no `DONE_MASK` bit and no event is lost. -/
structure Sticky (s t : State) : Prop where
  err : t.err &&& s.err = s.err
  doneMask : t.doneMask &&& s.doneMask = s.doneMask
  trace : ∃ new, t.trace = s.trace ++ new

theorem or_and_left_self {w : Nat} (x y : BitVec w) : (x ||| y) &&& x = x := by
  ext i hi
  simp only [BitVec.getElem_and, BitVec.getElem_or]
  cases x[i] <;> simp

theorem and_eq_of_and_eq {w : Nat} {x y z : BitVec w} (h : y &&& x = x) (h' : z &&& y = y) :
    z &&& x = x := by
  rw [← h, ← BitVec.and_assoc, h']

theorem Sticky.of_events {s t : State} {new : List OutEvent} (herr : t.err = s.err)
    (hmask : t.doneMask = s.doneMask) (htrace : t.trace = s.trace ++ new) : Sticky s t :=
  ⟨by rw [herr]; exact BitVec.and_self, by rw [hmask]; exact BitVec.and_self, new, htrace⟩

theorem Sticky.of_same {s t : State} (herr : t.err = s.err) (hmask : t.doneMask = s.doneMask)
    (htrace : t.trace = s.trace) : Sticky s t :=
  .of_events herr hmask (htrace.trans (List.append_nil _).symm)

theorem Sticky.refl (s : State) : Sticky s s := .of_same rfl rfl rfl

theorem Sticky.trans {s t u : State} (h : Sticky s t) (h' : Sticky t u) : Sticky s u := by
  obtain ⟨herr, hmask, new, hnew⟩ := h
  obtain ⟨herr', hmask', new', hnew'⟩ := h'
  exact ⟨and_eq_of_and_eq herr herr', and_eq_of_and_eq hmask hmask', new ++ new',
    by rw [hnew', hnew, List.append_assoc]⟩

theorem sticky_completeUop (s : State) : Sticky s (completeUop s) := by
  refine ⟨by simp, ?_, [], by simp⟩
  unfold completeUop
  split
  · dsimp only
    split
    · exact or_and_left_self ..
    · exact BitVec.and_self
  · exact BitVec.and_self

/-! ### Moves between which the program counter stands -/

/-- Nothing that the host's calls write has changed, nor has the program counter or the phase; flags
and events may have come. -/
structure HostSame (s t : State) : Prop where
  prog : t.prog = s.prog
  intent : t.intent = s.intent
  cmd : t.cmd = s.cmd
  params : t.params = s.params
  upc : t.upc = s.upc
  phase : t.phase = s.phase
  sticky : Sticky s t

/-- A move of the line or of the framer inside a micro-operation: the line is not turned to transmit. -/
structure Quiet (s t : State) : Prop extends HostSame s t where
  dir : t.dir = .tx → s.dir = .tx

/-- A quiet move, or one that ends the micro-operation in progress. -/
def Moves (s t : State) : Prop := ∃ u, Quiet s u ∧ (t = u ∨ t = completeUop u)

/-- The `uSEND` at `UPC` begins. -/
def TurnsToTransmit (s t : State) : Prop :=
  ∃ pkt, fetchUop s = some (.usend pkt) ∧ s.Between ∧ s.opn = true ∧ t = beginSend pkt s

section
variable {s t : State}

theorem HostSame.trans {u : State} (h : HostSame s t) (h' : HostSame t u) : HostSame s u :=
  ⟨h'.prog.trans h.prog, h'.intent.trans h.intent, h'.cmd.trans h.cmd, h'.params.trans h.params,
    h'.upc.trans h.upc, h'.phase.trans h.phase, h.sticky.trans h'.sticky⟩

theorem Quiet.trans {u : State} (h : Quiet s t) (h' : Quiet t u) : Quiet s u :=
  ⟨h.toHostSame.trans h'.toHostSame, h.dir ∘ h'.dir⟩

theorem Quiet.refl (s : State) : Quiet s s :=
  ⟨⟨rfl, rfl, rfl, rfl, rfl, rfl, .refl s⟩, id⟩

theorem Quiet.moves (h : Quiet s t) : Moves s t := ⟨t, h, .inl rfl⟩

theorem Quiet.moves_complete (h : Quiet s t) : Moves s (completeUop t) := ⟨t, h, .inr rfl⟩

theorem Quiet.then_moves {u : State} (h : Quiet s t) (h' : Moves t u) : Moves s u := by
  obtain ⟨v, hv, he⟩ := h'
  exact ⟨v, h.trans hv, he⟩

theorem TurnsToTransmit.hostSame (h : TurnsToTransmit s t) : HostSame s t := by
  obtain ⟨pkt, _, _, _, rfl⟩ := h
  exact ⟨rfl, rfl, rfl, rfl, rfl, rfl, BitVec.and_self, BitVec.and_self, _, rfl⟩

/-! ### The quiet updates -/

/-- An update of the registers of the link and of the Transport, with the events it emits. -/
theorem quiet_of_same {new : List OutEvent} (hprog : t.prog = s.prog) (hintent : t.intent = s.intent)
    (hcmd : t.cmd = s.cmd) (hparams : t.params = s.params) (hupc : t.upc = s.upc)
    (hphase : t.phase = s.phase) (herr : t.err = s.err) (hmask : t.doneMask = s.doneMask)
    (htrace : t.trace = s.trace ++ new) (hdir : t.dir = .tx → s.dir = .tx) : Quiet s t :=
  ⟨⟨hprog, hintent, hcmd, hparams, hupc, hphase, .of_events herr hmask htrace⟩, hdir⟩

theorem hostSame_recordError (k : ErrKind) (info : Byte) (e : OutEvent) (s : State) :
    HostSame s (recordError k info e s) :=
  ⟨rfl, rfl, rfl, rfl, rfl, rfl, or_and_left_self _ _, BitVec.and_self, _, rfl⟩

theorem quiet_raiseError (k : ErrKind) (info : Byte) (s : State) : Quiet s (raiseError k info s) :=
  ⟨hostSame_recordError .., id⟩

theorem quiet_dropRxbuf (s : State) : Quiet s (dropRxbuf s) :=
  quiet_of_same (new := []) rfl rfl rfl rfl rfl rfl rfl rfl (List.append_nil _).symm id

theorem quiet_openTransport (i : BaudIdx) (s : State) : Quiet s (openTransport i s) := by
  rw [openTransport_eq]
  exact quiet_of_same rfl rfl rfl rfl rfl rfl rfl rfl rfl id

theorem moves_runReport (s : State) : Moves s (runReport s) := by
  unfold runReport
  refine Quiet.moves_complete (Quiet.trans ?_ (quiet_dropRxbuf _))
  split
  · exact ⟨⟨rfl, rfl, rfl, rfl, rfl, rfl, BitVec.and_self, or_and_left_self _ _, _, rfl⟩, id⟩
  · exact .refl s

theorem moves_runRdlatch (s : State) : Moves s (runRdlatch s) := by
  unfold runRdlatch
  refine Quiet.moves_complete (Quiet.trans ?_ (quiet_dropRxbuf _))
  split
  · exact quiet_of_same rfl rfl rfl rfl rfl rfl rfl rfl rfl id
  · exact .refl s

theorem moves_endReceive (r : RxRes) (s : State) : Moves s (endReceive r s) :=
  Quiet.moves_complete
    (quiet_of_same (new := []) rfl rfl rfl rfl rfl rfl rfl rfl (List.append_nil _).symm id)

theorem quiet_setLst (l : LinkState) (k : Nat) (s : State) : Quiet s { s with lst := l, rxi := k } :=
  quiet_of_same (new := []) rfl rfl rfl rfl rfl rfl rfl rfl (List.append_nil _).symm id

theorem moves_checkBody (s : State) : Moves s (checkBody s) := by
  obtain ⟨_, _, he⟩ | ⟨_, he⟩ := checkBody_cases s <;> rw [he]
  · exact moves_endReceive ..
  · exact (((quiet_raiseError ..).trans (quiet_dropRxbuf _)).trans (quiet_setLst .hunt1 _ _)).moves

theorem quiet_stageByte (b : Byte) (s : State) : Quiet s (stageByte b s) :=
  quiet_of_same (new := []) rfl rfl rfl rfl rfl rfl rfl rfl (List.append_nil _).symm id

theorem moves_takeByte (b : Byte) (s : State) : Moves s (takeByte b s) := by
  unfold takeByte
  split
  · split
    · exact (quiet_setLst _ _ s).moves
    · exact (Quiet.refl s).moves
  · split_ifs
    · exact (quiet_setLst _ _ s).moves
    · exact (Quiet.refl s).moves
    · exact (quiet_setLst _ _ s).moves
  · split
    · exact (quiet_stageByte b s).moves
    · exact (quiet_stageByte b s).then_moves (moves_checkBody _)
  · exact (Quiet.refl s).moves
  · exact (Quiet.refl s).moves
  · exact (Quiet.refl s).moves

theorem moves_rxMove (s : State) : Moves s (rxMove s) := by
  unfold rxMove
  split
  · exact (Quiet.refl s).moves
  · next b rest _ =>
    have htaken : Quiet s { s with rxFifo := rest } :=
      quiet_of_same (new := []) rfl rfl rfl rfl rfl rfl rfl rfl (List.append_nil _).symm id
    exact htaken.then_moves (moves_takeByte b _)

theorem quiet_txMove (s : State) : Quiet s (txMove s) := by
  unfold txMove
  split
  · exact quiet_of_same rfl rfl rfl rfl rfl rfl rfl rfl rfl id
  · exact quiet_setLst _ _ s

theorem moves_timerMove (s : State) : Moves s (timerMove s) := by
  unfold timerMove
  split
  · exact Quiet.moves_complete
      (quiet_of_same (new := []) rfl rfl rfl rfl rfl rfl rfl rfl (List.append_nil _).symm id)
  · exact (Quiet.refl s).moves

theorem moves_engineMove (s : State) : Moves s (engineMove s) := by
  unfold engineMove
  split
  · exact (quiet_txMove s).moves
  · exact (Quiet.refl s).moves
  · exact moves_rxMove s
  · exact moves_rxMove s
  · exact moves_rxMove s
  · exact moves_timerMove s

theorem moves_takeDrained (s : State) : Moves s (takeDrained s) := by
  obtain ⟨_, he⟩ | ⟨_, he⟩ := takeDrained_cases s <;> rw [he]
  · exact Quiet.moves_complete (quiet_of_same rfl rfl rfl rfl rfl rfl rfl rfl rfl nofun)
  · exact (Quiet.refl s).moves

theorem moves_takeTimeout (s : State) : Moves s (takeTimeout s) := by
  obtain ⟨_, info, he⟩ | ⟨_, he⟩ := takeTimeout_cases s <;> rw [he]
  · exact ((quiet_raiseError ..).trans (quiet_dropRxbuf _)).then_moves (moves_endReceive ..)
  · exact (Quiet.refl s).moves

/-- The framer's move begins a `uSEND`, or goes on without turning the line. -/
theorem framerMove_turns_or_moves (h : framerMove s = .next t) :
    TurnsToTransmit s t ∨ Moves s t := by
  cases hf : fetchUop s with
  | none =>
    cases (framerMove_none hf).symm.trans h
    exact .inr (moves_engineMove s)
  | some u =>
    cases u with
    | uopen i =>
      obtain ⟨_, rfl⟩ := execReopen_next ((framerMove_uopen hf).symm.trans h)
      exact .inr (quiet_openTransport i s).moves_complete
    | usend pkt =>
      obtain ⟨hs, ho, rfl⟩ := execSend_next ((framerMove_usend hf).symm.trans h)
      exact .inl ⟨pkt, hf, hs, ho, rfl⟩
    | urecv len =>
      obtain ⟨_, rfl⟩ := execReceive_next ((framerMove_urecv hf).symm.trans h)
      exact .inr (Quiet.moves
        (quiet_of_same (new := []) rfl rfl rfl rfl rfl rfl rfl rfl (List.append_nil _).symm id))
    | uwait ms =>
      obtain ⟨_, rfl⟩ := execWait_next ((framerMove_uwait hf).symm.trans h)
      exact .inr (Quiet.moves (quiet_of_same rfl rfl rfl rfl rfl rfl rfl rfl rfl id))
    | ubaud i =>
      cases (framerMove_ubaud hf).symm.trans h
      exact .inr (Quiet.moves_complete
        (quiet_of_same (new := []) rfl rfl rfl rfl rfl rfl rfl rfl (List.append_nil _).symm id))
    | ureport =>
      cases (framerMove_ureport hf).symm.trans h
      exact .inr (moves_runReport s)
    | urdlatch =>
      cases (framerMove_urdlatch hf).symm.trans h
      exact .inr (moves_runRdlatch s)

/-! ### Every step, by what it does to the host's side -/

/-- The host's registers stay, or the micro-operation in progress completes. -/
def Evolves (s t : State) : Prop := ∃ u, HostSame s u ∧ (t = u ∨ t = completeUop u)

theorem HostSame.evolves (h : HostSame s t) : Evolves s t := ⟨t, h, .inl rfl⟩

theorem Moves.evolves (h : Moves s t) : Evolves s t := by
  obtain ⟨u, hu, he⟩ := h
  exact ⟨u, hu.toHostSame, he⟩

theorem framerMove_evolves (h : framerMove s = .next t) : Evolves s t :=
  (framerMove_turns_or_moves h).elim (fun ht => ht.hostSame.evolves) Moves.evolves

theorem HostSame.then_evolves {u : State} (h : HostSame s t) (h' : Evolves t u) : Evolves s u := by
  obtain ⟨v, hv, he⟩ := h'
  exact ⟨v, h.trans hv, he⟩

/-- Taking an input leaves the registers. -/
theorem hostSame_inbox (s : State) (rest : List Input) : HostSame s { s with inbox := rest } :=
  ⟨rfl, rfl, rfl, rfl, rfl, rfl, .of_same rfl rfl rfl⟩

/-- Every step evolves, or is a `Reset`, an accepted `Start` or an accepted command. -/
theorem step_evolves_or (h : step s = .next t) :
    Evolves s t ∨ (∃ rest, s.inbox = .reset :: rest ∧ t = applyReset { s with inbox := rest }) ∨
    (∃ c rest, s.inbox = .start c :: rest ∧ s.phase = .idle ∧ intentValid c = true ∧
      t = acceptStart c { s with inbox := rest }) ∨
    (∃ e rest c, s.inbox = e :: rest ∧ ((∃ i, e = .cmd i) ∨ ∃ bs, e = .frame bs) ∧
      s.phase = .ready ∧ t = acceptCmd c { s with inbox := rest }) := by
  have refused (k : ErrKind) (info : Byte) (rest : List Input) :
      Evolves s (refuseCall k info { s with inbox := rest }) :=
    ((hostSame_inbox s rest).trans (hostSame_recordError ..)).evolves
  obtain ⟨_, h⟩ | ⟨rest, _, h⟩ | ⟨rest, hi, rfl⟩ | ⟨c, rest, hi, h⟩ |
    ⟨e, rest, i, c, hi, hform, _, _, rfl⟩ | ⟨_, rest, _, _, _, _, _, _, _, h⟩ | ⟨rest, _, rfl⟩ |
    ⟨b, rest, _, rfl⟩ | ⟨rest, _, rfl⟩ := step_cases h
  · exact .inl (framerMove_evolves h)
  · exact .inl ((hostSame_inbox s rest).then_evolves (framerMove_evolves h))
  · exact .inr (.inl ⟨rest, hi, rfl⟩)
  · obtain ⟨_, he⟩ | ⟨_, _, he⟩ | ⟨_, _, _, he⟩ | ⟨hp, hv, he⟩ :=
      execSession_cases c { s with inbox := rest } <;> cases he.symm.trans h
    · exact .inl (refused _ _ rest)
    · exact .inl (refused _ _ rest)
    · exact .inl (refused _ _ rest)
    · exact .inr (.inr (.inl ⟨c, rest, hi, hp, hv, rfl⟩))
  · obtain ⟨_, he⟩ | ⟨_, _, he⟩ | ⟨_, _, _, he⟩ | ⟨_, _, _, _, he⟩ | ⟨hp, _, _, _, he⟩ :=
      callCommand_cases c { s with inbox := rest } <;> rw [he]
    · exact .inl (refused _ _ rest)
    · exact .inl (refused _ _ rest)
    · exact .inl (refused _ _ rest)
    · exact .inl (refused _ _ rest)
    · exact .inr (.inr (.inr ⟨e, rest, c, hi, hform, hp, rfl⟩))
  · cases h
    exact .inl (HostSame.evolves ⟨rfl, rfl, rfl, rfl, rfl, rfl, .of_same rfl rfl rfl⟩)
  · exact .inl ((hostSame_inbox s rest).then_evolves (moves_takeDrained _).evolves)
  · exact .inl (HostSame.evolves ⟨rfl, rfl, rfl, rfl, rfl, rfl, .of_same rfl rfl rfl⟩)
  · exact .inl ((hostSame_inbox s rest).then_evolves (moves_takeTimeout _).evolves)

/-! ### The obligations -/

theorem Evolves.sticky (h : Evolves s t) : Sticky s t := by
  obtain ⟨u, hu, rfl | rfl⟩ := h
  · exact hu.sticky
  · exact hu.sticky.trans (sticky_completeUop u)

/-- The program counter stands, or advances by one and the phase ends with the program. -/
theorem Evolves.counter (h : Evolves s t) :
    t.prog = s.prog ∧ ((t.upc = s.upc ∧ t.phase = s.phase) ∨
      (s.busy = true ∧ s.upc < s.prog.length ∧ t.upc = s.upc + 1 ∧
        t.phase = if s.upc + 1 = s.prog.length then .ready else s.phase)) := by
  obtain ⟨u, hu, rfl | rfl⟩ := h
  · exact ⟨hu.prog, .inl ⟨hu.upc, hu.phase⟩⟩
  · refine ⟨(completeUop_prog u).trans hu.prog, ?_⟩
    obtain hsame | ⟨hb, hlt, hupc, hphase⟩ := completeUop_cases u
    · rw [hsame]
      exact .inl ⟨hu.upc, hu.phase⟩
    · rw [hu.upc, hu.prog] at hlt
      rw [hu.upc, hu.prog, hu.phase] at hphase
      rw [hu.upc] at hupc
      rw [State.busy, hu.phase] at hb
      exact .inr ⟨hb, hlt, hupc, hphase⟩

end

/-- Settles O52: on no input and on the line's inputs the framer evolves. -/
theorem lineNeverChangesProgram : Obligations.LineNeverChangesProgram := by
  intro s t h hi
  have hline {e : Input} {rest : List Input} (hr : s.inbox = e :: rest) :
      e = .tick ∨ e = .drained ∨ e = .rxTimeout ∨ ∃ b, e = .rx b := by
    obtain hnil | ⟨e', rest', hcons, he⟩ := hi
    · cases hr.symm.trans hnil
    · cases hr.symm.trans hcons
      exact he
  have hev : Evolves s t := by
    obtain hev | ⟨_, hr, _⟩ | ⟨_, _, hr, _⟩ | ⟨_, _, _, hr, ⟨_, rfl⟩ | ⟨_, rfl⟩, _⟩ :=
      step_evolves_or h
    · exact hev
    · simpa using hline hr
    · simpa using hline hr
    · simpa using hline hr
    · simpa using hline hr
  obtain ⟨u, hu, he⟩ := id hev
  obtain ⟨hprog, hcounter⟩ := hev.counter
  have hkeep : t.intent = u.intent ∧ t.cmd = u.cmd ∧ t.params = u.params := by
    obtain rfl | rfl := he <;> simp
  obtain ⟨hintent, hcmd, hparams⟩ := hkeep
  exact ⟨hprog, hintent.trans hu.intent, hcmd.trans hu.cmd, hparams.trans hu.params,
    hcounter.imp And.left fun ⟨_, _, hupc, _⟩ => hupc⟩

/-- Settles O53: evolving is sticky, and an accepted call touches neither flags nor trace. -/
theorem flagsAreSticky : Obligations.FlagsAreSticky := by
  intro s t h hreset
  suffices hs : Sticky s t from ⟨hs.err, hs.doneMask, hs.trace⟩
  obtain hev | ⟨rest, hr, _⟩ | ⟨_, _, _, _, _, rfl⟩ | ⟨_, _, _, _, _, _, rfl⟩ := step_evolves_or h
  · exact hev.sticky
  · exact absurd hr (hreset rest)
  · exact .of_same rfl rfl rfl
  · exact .of_same rfl rfl rfl

/-- Settles O54: evolving changes the phase only at the end of a running program. -/
theorem phaseTransitions : Obligations.PhaseTransitions := by
  intro s t h hne
  obtain hev | ⟨rest, hr, rfl⟩ | ⟨c, rest, hi, hp, hv, rfl⟩ | ⟨e, rest, c, hi, hform, hp, rfl⟩ :=
    step_evolves_or h
  · obtain ⟨hprog, ⟨_, hsame⟩ | ⟨hb, _, hupc, hphase⟩⟩ := hev.counter
    · exact absurd hsame hne
    · split at hphase
      · next hlast =>
        have hend : t.upc = t.prog.length := by rw [hupc, hprog, hlast]
        obtain hs | hc := (busy_iff s).1 hb
        · exact .inr (.inr (.inl ⟨hs, hphase, hend⟩))
        · exact .inr (.inr (.inr (.inr ⟨hc, hphase, hend⟩)))
      · exact absurd hphase hne
  · exact .inl ⟨rfl, rest, hr⟩
  · exact .inr (.inl ⟨hp, rfl, c, rest, hi, hv⟩)
  · exact .inr (.inr (.inr (.inl ⟨hp, rfl, e, rest, hi, hform⟩)))

/-! ### SEQ -/

theorem number_le_done (q : Seq) : q.number ≤ Seq.done.number := by
  cases q <;> decide

theorem seq_of_ready_or_cmd {s : State} (h : s.phase = .ready ∨ s.phase = .cmd) : s.seq = .done := by
  obtain h | h := h <;> rw [State.seq, h]

theorem seq_of_session {s : State} {tag : Seq} {u : UOp} (h : s.phase = .session)
    (hu : s.prog[s.upc]? = some (tag, u)) : s.seq = tag := by
  rw [State.seq, h, hu]
  rfl

theorem seq_congr {s t : State} (hphase : t.phase = s.phase) (hprog : t.prog = s.prog)
    (hupc : t.upc = s.upc) : t.seq = s.seq := by
  rw [State.seq, State.seq, hphase, hprog, hupc]

/-- Advancing in a session goes from a tag to one no lower. -/
theorem Inv.seq_le_next {s t : State} (h : Inv s) (hp : s.phase = .session) (hprog : t.prog = s.prog)
    (hupc : t.upc = s.upc + 1) (hlt : s.upc + 1 < s.prog.length) (hphase : t.phase = .session) :
    s.seq.number ≤ t.seq.number := by
  have hcur : s.prog[s.upc]? = some s.prog[s.upc] := List.getElem?_eq_getElem _
  have hnext : t.prog[t.upc]? = some s.prog[s.upc + 1] := by
    rw [hprog, hupc]
    exact List.getElem?_eq_getElem _
  rw [seq_of_session hp hcur, seq_of_session hphase hnext]
  exact List.pairwise_iff_getElem.1 (h.session_tags hp).1 _ _ _ _ (Nat.lt_succ_self _)

/-- Settles O55: `SEQ` is the tag at `UPC`, the tags ascend, and after a session it is `Done`. -/
theorem seqOnlyIncreases : Obligations.SeqOnlyIncreases := by
  intro s t hinv h hreset
  obtain hev | ⟨rest, hr, _⟩ | ⟨c, rest, _, hp, _, rfl⟩ | ⟨e, rest, c, _, _, hp, rfl⟩ :=
    step_evolves_or h
  · obtain ⟨hprog, ⟨hupc, hphase⟩ | ⟨hb, hlt, hupc, hphase⟩⟩ := hev.counter
    · rw [seq_congr hphase hprog hupc]
    · split at hphase
      · rw [seq_of_ready_or_cmd (.inl hphase)]
        exact number_le_done _
      · next hmore =>
        obtain hs | hc := (busy_iff s).1 hb
        · exact hinv.seq_le_next hs hprog hupc (Nat.lt_of_le_of_ne hlt hmore) (hphase.trans hs)
        · rw [seq_of_ready_or_cmd (.inr (hphase.trans hc))]
          exact number_le_done _
  · exact absurd hr (hreset rest)
  · have hzero : s.seq = .idle := by rw [State.seq, hp]
    rw [hzero]
    exact Nat.zero_le _
  · rw [seq_of_ready_or_cmd (s := acceptCmd c { s with inbox := rest }) (.inr rfl)]
    exact number_le_done _

/-! ### The direction line -/

theorem Moves.dir {s t : State} (h : Moves s t) (ht : t.dir = .tx) : s.dir = .tx := by
  obtain ⟨u, hu, rfl | rfl⟩ := h
  · exact hu.dir ht
  · exact hu.dir (by simpa using ht)

theorem callCommand_dir (c : CmdCall) (s : State) : (callCommand c s).dir = s.dir := by
  obtain ⟨_, h⟩ | ⟨_, _, h⟩ | ⟨_, _, _, h⟩ | ⟨_, _, _, _, h⟩ | ⟨_, _, _, _, h⟩ :=
    callCommand_cases c s <;> simp [h]

theorem execSession_dir {c : Intent} {s t : State} (h : execSession c s = .next t) :
    t.dir = s.dir := by
  obtain ⟨_, he⟩ | ⟨_, _, he⟩ | ⟨_, _, _, he⟩ | ⟨_, _, he⟩ := execSession_cases c s <;>
    cases he.symm.trans h <;> simp

/-- What a framer's move that turns the line says of the state it began in. -/
theorem transmit_of_framerMove {s t : State} (h : framerMove s = .next t) (hs : s.dir = .rx)
    (ht : t.dir = .tx) :
    s.busy = true ∧ s.Between ∧ s.opn = true ∧
      (∃ pkt, s.currentUop = some (.usend pkt) ∧ t.txbuf = pkt) ∧
      t.trace = s.trace ++ [.dir .tx] ∧ t.upc = s.upc := by
  obtain ⟨pkt, hf, hbetween, ho, rfl⟩ | hm := framerMove_turns_or_moves h
  · obtain ⟨hb, _, _, hu⟩ := fetchUop_some hf
    exact ⟨hb, hbetween, ho, ⟨pkt, hu, rfl⟩, rfl, rfl⟩
  · cases hs.symm.trans (hm.dir ht)

/-- Settles O35: of all steps only the framer's own move can turn the line. -/
theorem transmitBeginsOnlyBetweenMicroOperations :
    Obligations.TransmitBeginsOnlyBetweenMicroOperations := by
  intro s t h hs ht
  have keeps {P : Prop} (hkeep : t.dir = .tx → s.dir = .tx) : P := by
    cases hs.symm.trans (hkeep ht)
  obtain ⟨_, h⟩ | ⟨rest, _, h⟩ | ⟨_, _, rfl⟩ | ⟨c, rest, _, h⟩ | ⟨_, rest, _, c, _, _, _, _, rfl⟩ |
    ⟨_, _, _, _, _, _, _, _, _, h⟩ | ⟨_, _, rfl⟩ | ⟨_, _, _, rfl⟩ | ⟨_, _, rfl⟩ := step_cases h
  · exact transmit_of_framerMove h hs ht
  · exact transmit_of_framerMove (s := { s with inbox := rest }) h hs ht
  · cases ht
  · exact keeps fun htx => (execSession_dir h).symm.trans htx
  · exact keeps fun htx => (callCommand_dir c { s with inbox := rest }).symm.trans htx
  · cases h
    exact keeps id
  · exact keeps (moves_takeDrained _).dir
  · exact keeps id
  · exact keeps (moves_takeTimeout _).dir

end Sys2Proof.Machine
end

section
/-! PROOFS. Runs: one `uSEND` on the wire (O25), a valid response taken (O31), waits that are stuck or
fair (O26). -/

namespace Sys2Proof.Machine

/-! ### Runs -/

/-- `k` steps of the framer, as a run of `core`. -/
def run (k : Nat) (s : State) : Host.Outcome State Fault Refusal := Host.Core.run core k s

theorem run_succ {s t : State} (h : step s = .next t) (k : Nat) : run (k + 1) s = run k t := by
  have h' : core.step s = .next t := h
  simp only [run, Host.Core.run, h']
  rfl

theorem run_one {s t : State} (h : step s = .next t) : run 1 s = .next t := run_succ h 0

theorem run_add {s t : State} {m : Nat} (h : run m s = .next t) (n : Nat) :
    run (m + n) s = run n t := by
  induction m generalizing s with
  | zero =>
    cases h
    rw [Nat.zero_add]
  | succ m ih =>
    rw [Nat.succ_add]
    cases hs : core.step s with
    | next u =>
      rw [run_succ hs] at h ⊢
      exact ih h
    | fault r => simp only [run, Host.Core.run, hs, reduceCtorEq] at h
    | refused r => simp only [run, Host.Core.run, hs, reduceCtorEq] at h

/-! ### One uSEND -/

theorem txMove_write {s : State} {b : Byte} (h : s.txi < s.txn) (hb : s.txbuf[s.txi]? = some b) :
    txMove s = { s with txi := s.txi + 1, trace := s.trace ++ [.tx b] } := by
  have hat : s.txAt s.txi = b := by rw [State.txAt, hb]; rfl
  rw [txMove, if_pos h, hat]
  rfl

theorem txMove_end {s : State} (h : s.txi = s.txn) : txMove s = { s with lst := .drain } :=
  if_neg (by omega)

/-- In `L_TX` each move writes one byte. -/
theorem run_write {s : State} {rest : List Input} (k : Nat) (hl : s.lst = .tx)
    (hn : s.txn = s.txbuf.length) (hk : s.txi + k = s.txn)
    (hi : s.inbox = List.replicate k .tick ++ rest) :
    run k s = .next
      { s with
        txi := s.txi + k
        inbox := rest
        trace := s.trace ++ (s.txbuf.drop s.txi).map .tx } := by
  induction k generalizing s with
  | zero =>
    have hdrop : s.txbuf.drop s.txi = [] := List.drop_of_length_le (by omega)
    rw [hdrop, List.map_nil, List.append_nil]
    cases hi
    rfl
  | succ k ih =>
    have hlt : s.txi < s.txbuf.length := by omega
    have hstep : step s = .next
        { s with
          inbox := List.replicate k .tick ++ rest
          txi := s.txi + 1
          trace := s.trace ++ [.tx s.txbuf[s.txi]] } := by
      refine (step_tick hi).trans (Eq.trans (framerMove_of_tx (by exact hl)) (congrArg _ ?_))
      exact txMove_write (s := { s with inbox := _ }) (show s.txi < s.txn by omega)
        (List.getElem?_eq_getElem hlt)
    rw [run_succ hstep, ih (by exact hl) (by exact hn) (show s.txi + 1 + k = s.txn by omega) rfl]
    simp only [List.drop_eq_getElem_cons hlt, List.map_cons, List.append_assoc, Nat.add_assoc,
      Nat.add_comm 1 k, List.singleton_append]

/-- A `uSEND` of the packet `pkt` but for its completion: the packet is on the wire, and `TXBUF` holds no
value any more. -/
def sendEffect (pkt : List Byte) (s : State) : State :=
  { s with
    txbuf := []
    freeCtr := s.freeCtr + 1
    txn := pkt.length
    txi := pkt.length
    trace := s.trace ++ frameEvents pkt }

/-- A whole `uSEND`, given a move for each byte, two more and `Drained`. -/
theorem run_usend {s : State} {pkt : List Byte} {rest : List Input} (hb : s.busy = true)
    (hs : s.Between) (ho : s.opn = true) (hu : s.currentUop = some (.usend pkt))
    (hi : s.inbox = (UOp.usend pkt).inputs ++ rest) :
    run (UOp.usend pkt).inputs.length s =
      .next (completeUop (sendEffect pkt { s with inbox := rest })) := by
  obtain ⟨hl, hd, ht⟩ := hs
  let writing : State :=
    beginSend pkt { s with inbox := List.replicate pkt.length .tick ++ (.tick :: .drained :: rest) }
  let written : State :=
    { writing with
      txi := 0 + pkt.length
      inbox := .tick :: .drained :: rest
      trace := writing.trace ++ (pkt.drop 0).map .tx }
  have hi' : s.inbox =
      .tick :: (List.replicate pkt.length .tick ++ (.tick :: .drained :: rest)) := by
    rw [hi, UOp.inputs, List.replicate_succ, List.replicate_succ']
    simp
  have hbegin : step s = .next writing := by
    refine (step_tick hi').trans (Eq.trans (framerMove_usend (pkt := pkt) ?_) ?_)
    · exact fetchUop_of_current hb hl ht hu
    · exact execSend_of_between (by exact ⟨hl, hd, ht⟩) (by exact ho) pkt
  have hwrite : run pkt.length writing = .next written :=
    run_write pkt.length rfl rfl (Nat.zero_add _) rfl
  have hdrain : step written = .next { written with inbox := .drained :: rest, lst := .drain } :=
    (step_tick rfl).trans (Eq.trans (framerMove_of_tx rfl) (congrArg _ (txMove_end (Nat.zero_add _))))
  have hlen : (UOp.usend pkt).inputs.length = 1 + (pkt.length + (1 + 1)) := by
    simp [UOp.inputs]; omega
  rw [hlen, run_add (run_one hbegin), run_add hwrite, run_add (run_one hdrain),
    run_one (step_drained rfl), takeDrained, if_pos rfl]
  refine congrArg Host.Outcome.next (congrArg completeUop ?_)
  simp [written, writing, beginSend, dropTxbuf, sendEffect, emit, frameEvents, hl, hd]

/-- Settles O25: a whole `uSEND`; and `Drained` in any other state is dropped. -/
theorem sendPutsFrameOnWire : Obligations.SendPutsFrameOnWire := by
  refine ⟨fun s pkt rest hb hl hd ht ho hu hi => ?_, fun s rest hi hne => ?_⟩
  · have hlen : (UOp.usend pkt).inputs.length = pkt.length + 3 := by simp [UOp.inputs]
    rw [← hlen]
    exact run_usend hb ⟨hl, hd, ht⟩ ho hu (by simpa [UOp.inputs] using hi)
  · rw [step_drained hi, takeDrained, if_neg (by exact hne)]

/-! ### A valid response -/

/-- In `L_BODY` the rest of a body that passes DECODE is staged and accepted. -/
theorem run_stage {s : State} {b : Byte} {bs rest : List Byte} {f : Fields} (hl : s.lst = .body)
    (hi : s.inbox = []) (hq : s.rxFifo = b :: (bs ++ rest)) (hx : s.rxi ≤ s.rxbuf.length)
    (hn : s.rxi + (bs.length + 1) = s.rxn)
    (hf : decodeBody (s.rxbuf.take s.rxi ++ b :: bs) = .ok f) :
    run (bs.length + 1) s = .next (completeUop
      { s with
        rxFifo := rest
        rxbuf := s.rxbuf.take s.rxi ++ b :: bs
        rxi := s.rxi + (bs.length + 1)
        rxres := .ok
        rxdl := .stopped
        lst := .idle }) := by
  induction bs generalizing b s with
  | nil =>
    obtain ⟨_, haccept, _⟩ := stagingAndCheck s b rest hi hq hl hx
    exact run_one (haccept hn ⟨f, hf⟩)
  | cons c bs ih =>
    obtain ⟨hmore, _, _⟩ := stagingAndCheck s b _ hi hq hl hx
    have hlt : s.rxi + 1 < s.rxn := by rw [← hn, List.length_cons]; omega
    have hlen : (s.rxbuf.take s.rxi ++ [b]).length = s.rxi + 1 := by simp [hx]
    have htake : (s.rxbuf.take s.rxi ++ [b]).take (s.rxi + 1) = s.rxbuf.take s.rxi ++ [b] :=
      List.take_of_length_le hlen.le
    have hbody : (s.rxbuf.take s.rxi ++ [b]).take (s.rxi + 1) ++ c :: bs =
        s.rxbuf.take s.rxi ++ b :: c :: bs := by
      rw [htake, List.append_assoc, List.singleton_append]
    have hcount : s.rxi + 1 + (bs.length + 1) = s.rxi + ((c :: bs).length + 1) := by
      rw [List.length_cons]; omega
    rw [List.length_cons, run_succ (hmore hlt), ih (by exact hl) (by exact hi) (by exact rfl)
      (by exact hlen.ge) (by exact hcount.trans hn) (by exact hbody ▸ hf)]
    simp only [hbody, hcount]
    rfl

/-- Settles O31: two moves of the hunt, then the staging of the whole body. -/
theorem validResponseAccepted : Obligations.ValidResponseAccepted := by
  intro s body rest f hi hl hq hn hf
  obtain ⟨b, bs, rfl⟩ : ∃ b bs, body = b :: bs := by
    have := six_le_of_decodeBody_eq_ok hf
    exact List.exists_cons_of_ne_nil (by rintro rfl; simp at this)
  obtain ⟨hfirst, _⟩ := headerHuntTable s 0xFD (0xDF :: (b :: (bs ++ rest))) hi hq
  let hunting : State := { s with rxFifo := 0xDF :: (b :: (bs ++ rest)), lst := .hunt2 }
  obtain ⟨_, _, hsecond, _⟩ := headerHuntTable hunting 0xDF (b :: (bs ++ rest)) hi rfl
  have hn' : bs.length + 1 = s.rxn := hn
  have hlen : 2 + s.rxn = 1 + (1 + (bs.length + 1)) := by omega
  change run (2 + s.rxn) s = _
  rw [hlen, run_add (run_one (hfirst hl rfl)), run_add (run_one (hsecond rfl rfl)),
    run_stage (f := f) rfl (by exact hi) rfl (Nat.zero_le _)
      ((Nat.zero_add _).trans hn') (by exact hf)]
  simp only [hunting, hn', Nat.zero_add, List.take_zero, List.nil_append]
  rfl

/-! ### Stuck waits -/

/-- In `L_DRAIN` the framer's own moves only use up their places among the inputs. -/
theorem run_drain {s : State} (k n : Nat) (hl : s.lst = .drain)
    (hi : s.inbox = List.replicate n .tick) :
    run k s = .next { s with inbox := List.replicate (n - k) .tick } := by
  induction k generalizing s n with
  | zero =>
    rw [Nat.sub_zero, ← hi]
    rfl
  | succ k ih =>
    cases n with
    | zero =>
      rw [run_succ ((step_nil hi).trans (framerMove_of_drain hl)), ih 0 hl hi, Nat.zero_sub,
        Nat.zero_sub]
    | succ n =>
      rw [run_succ ((step_tick hi).trans (framerMove_of_drain (by exact hl))),
        ih n (by exact hl) rfl, Nat.add_sub_add_right]

/-! ### Waits under a fair line -/

theorem callCommand_lst (c : CmdCall) (s : State) : (callCommand c s).lst = s.lst := by
  obtain ⟨_, h⟩ | ⟨_, _, h⟩ | ⟨_, _, _, h⟩ | ⟨_, _, _, _, h⟩ | ⟨_, _, _, _, h⟩ :=
    callCommand_cases c s <;> simp [h]

theorem execSession_lst {c : Intent} {s t : State} (h : execSession c s = .next t) :
    t.lst = s.lst := by
  obtain ⟨_, he⟩ | ⟨_, _, he⟩ | ⟨_, _, _, he⟩ | ⟨_, _, he⟩ := execSession_cases c s <;>
    cases he.symm.trans h <;> simp

/-- On one input that is no `Reset`, only the framer's move, `Drained` and `RxTimeout` can move the link
engine. -/
theorem step_input_cases {s t : State} {e : Input} (h : step { s with inbox := [e] } = .next t)
    (he : e ≠ .reset) :
    (e = .tick ∧ framerMove { s with inbox := [] } = .next t) ∨
    (e = .drained ∧ t = takeDrained { s with inbox := [] }) ∨
    (e = .rxTimeout ∧ t = takeTimeout { s with inbox := [] }) ∨
    (e ≠ .tick ∧ e ≠ .drained ∧ e ≠ .rxTimeout ∧ t.lst = s.lst) := by
  obtain ⟨hi, _⟩ | ⟨_, hi, h⟩ | ⟨_, hi, _⟩ | ⟨c, _, hi, h⟩ |
    ⟨_, rest, _, c, hi, ⟨_, rfl⟩ | ⟨_, rfl⟩, _, _, rfl⟩ | ⟨_, _, _, _, _, _, _, _, hi, h⟩ |
    ⟨_, hi, rfl⟩ | ⟨_, _, hi, rfl⟩ | ⟨_, hi, rfl⟩ := step_cases h <;> cases hi
  · exact .inl ⟨rfl, h⟩
  · exact absurd rfl he
  · exact .inr (.inr (.inr ⟨nofun, nofun, nofun, (execSession_lst h).trans rfl⟩))
  · exact .inr (.inr (.inr ⟨nofun, nofun, nofun, callCommand_lst c _⟩))
  · exact .inr (.inr (.inr ⟨nofun, nofun, nofun, callCommand_lst c _⟩))
  · cases h
    exact .inr (.inr (.inr ⟨nofun, nofun, nofun, rfl⟩))
  · exact .inr (.inl ⟨rfl, rfl⟩)
  · exact .inr (.inr (.inr ⟨nofun, nofun, nofun, rfl⟩))
  · exact .inr (.inr (.inl ⟨rfl, rfl⟩))

section
variable {σ : Nat → Input} {s : State}

theorem runUnder_succ {n : Nat} {u : State} (h : runUnder σ s n = .next u) :
    runUnder σ s (n + 1) = step { u with inbox := [σ n] } := by
  rw [runUnder, h]

/-- A wait that only the event `P` ends is ended by the first one. -/
theorem wait_until {W : State → Prop} {P : Nat → State → Prop}
    (hans : ∀ m, ∃ u, runUnder σ s m = .next u)
    (hkeep : ∀ m u v, W u → ¬ P m u → step { u with inbox := [σ m] } = .next v → W v)
    {n d : Nat} {t u : State} (ht : runUnder σ s n = .next t) (hw : W t)
    (hu : runUnder σ s (n + d) = .next u) (hp : P (n + d) u) :
    ∃ m u v, n ≤ m ∧ runUnder σ s m = .next u ∧ W u ∧ P m u ∧
      step { u with inbox := [σ m] } = .next v ∧ runUnder σ s (m + 1) = .next v := by
  obtain ⟨v, hv⟩ := hans (n + 1)
  have hstep : step { t with inbox := [σ n] } = .next v := (runUnder_succ ht).symm.trans hv
  by_cases hnow : P n t
  · exact ⟨n, t, v, le_rfl, ht, hw, hnow, hstep, hv⟩
  · induction d generalizing n t v with
    | zero =>
      cases ht.symm.trans hu
      exact absurd hp hnow
    | succ d ih =>
      have hshift : n + (d + 1) = n + 1 + d := by omega
      rw [hshift] at hu hp
      obtain ⟨v', hv'⟩ := hans (n + 1 + 1)
      have hw' := hkeep n t v hw hnow hstep
      have hstep' : step { v with inbox := [σ (n + 1)] } = .next v' :=
        (runUnder_succ hv).symm.trans hv'
      by_cases hnext : P (n + 1) v
      · exact ⟨n + 1, v, v', Nat.le_succ n, hv, hw', hnext, hstep', hv'⟩
      · obtain ⟨m, x, y, hm, hrest⟩ := ih hv hw' hu hp v' hv' hstep' hnext
        exact ⟨m, x, y, Nat.le_of_succ_le hm, hrest⟩

end

/-- Only `Drained` and `Reset` move the link engine out of `L_DRAIN`. -/
theorem drain_keeps {u v : State} {e : Input} (hl : u.lst = .drain) (hne : e ≠ .drained)
    (hr : e ≠ .reset) (h : step { u with inbox := [e] } = .next v) : v.lst = .drain := by
  obtain ⟨_, hmove⟩ | ⟨hd, _⟩ | ⟨_, rfl⟩ | ⟨_, _, _, hsame⟩ := step_input_cases h hr
  · cases (framerMove_of_drain (s := { u with inbox := [] }) hl).symm.trans hmove
    exact hl
  · exact absurd hd hne
  · obtain ⟨hrecv, _⟩ | ⟨_, he⟩ := takeTimeout_cases { u with inbox := [] }
    · exact absurd hl (lst_ne_drain_of_receiving hrecv)
    · rw [he]
      exact hl
  · exact hsame.trans hl

theorem receiving_congr {s t : State} (h : t.lst = s.lst) (hr : s.receiving) : t.receiving := by
  rw [State.receiving, h]
  exact hr

/-- Only `RxTimeout`, a received byte taken and `Reset` move the link engine inside a `uRECV`. -/
theorem receiving_keeps {u v : State} {e : Input} (hu : u.receiving)
    (hne : ¬ (e = .rxTimeout ∨ (e = .tick ∧ u.rxFifo ≠ []))) (hr : e ≠ .reset)
    (h : step { u with inbox := [e] } = .next v) : v.receiving := by
  rw [not_or, not_and, not_not] at hne
  obtain ⟨hnot, hempty⟩ := hne
  obtain ⟨ht, hmove⟩ | ⟨_, rfl⟩ | ⟨ht, _⟩ | ⟨_, _, _, hsame⟩ := step_input_cases h hr
  · cases (framerMove_of_no_byte (s := { u with inbox := [] }) hu (hempty ht)).symm.trans hmove
    exact hu
  · rw [takeDrained, if_neg (by exact lst_ne_drain_of_receiving hu)]
    exact hu
  · exact absurd ht hnot
  · exact receiving_congr hsame hu

theorem takeByte_rxFifo (b : Byte) (s : State) : (takeByte b s).rxFifo = s.rxFifo := by
  unfold takeByte
  split
  · split <;> rfl
  · split_ifs <;> rfl
  · split
    · rfl
    · obtain ⟨_, _, he⟩ | ⟨_, he⟩ := checkBody_cases (stageByte b s) <;> simp [he, endReceive]
  · rfl
  · rfl
  · rfl

theorem takeTimeout_ends {s : State} (h : s.receiving) :
    (takeTimeout s).lst = .idle ∧ (takeTimeout s).rxres = .timeout := by
  obtain ⟨_, _, he⟩ | ⟨hno, _⟩ := takeTimeout_cases s
  · simp [he, endReceive]
  · exact absurd h hno

/-- Settles O26: without `Drained` nothing changes; with a fair line each wait lasts until its input,
which ends it. -/
theorem undrainedSendIsStuck : Obligations.UndrainedSendIsStuck := by
  refine ⟨fun s k n => run_drain k n, fun σ s t n hfair hreset hans ht => ?_⟩
  obtain ⟨hdrain, hrecv⟩ := hfair n t ht
  refine ⟨fun hl => ?_, fun hr => ?_⟩
  · obtain ⟨m, hm, hd⟩ := hdrain hl
    obtain ⟨d, rfl⟩ := Nat.exists_eq_add_of_le hm
    obtain ⟨u, hu⟩ := hans (n + d)
    obtain ⟨k, x, y, hk, hx, hxl, hxd, hstep, hy⟩ :=
      wait_until (W := fun u => u.lst = .drain) (P := fun m _ => σ m = .drained) hans
        (fun m u v hu hne hs => drain_keeps hu hne (hreset m) hs) ht hl hu hd
    refine ⟨k, x, y, hk, hx, hxl, hy, ?_⟩
    rw [hxd, step_drained rfl, takeDrained, if_pos (by exact hxl)] at hstep
    cases hstep
    simp
  · obtain ⟨m, u, hm, hu, hp⟩ := hrecv hr
    obtain ⟨d, rfl⟩ := Nat.exists_eq_add_of_le hm
    obtain ⟨k, x, y, hk, hx, hxr, hxp, hstep, hy⟩ :=
      wait_until (W := State.receiving)
        (P := fun m u => σ m = .rxTimeout ∨ (σ m = .tick ∧ u.rxFifo ≠ [])) hans
        (fun m u v hu hne hs => receiving_keeps hu hne (hreset m) hs) ht hr hu hp
    refine ⟨k, x, y, hk, hx, hxr, hy, ?_⟩
    obtain hto | ⟨htick, hq⟩ := hxp
    · rw [hto, step_rxTimeout rfl] at hstep
      cases hstep
      exact .inr ⟨hto, takeTimeout_ends (by exact hxr)⟩
    · obtain ⟨b, rest, hb⟩ := List.exists_cons_of_ne_nil hq
      rw [htick, step_tick rfl, framerMove_of_byte (by exact hxr) (by exact hb)] at hstep
      cases hstep
      exact .inl ⟨htick, b, by rw [takeByte_rxFifo]; exact hb⟩

end Sys2Proof.Machine
end

section
/-! PROOFS. Programs that read nothing from the line, from beginning to end: any of them (O48), a command's
(O49), a session's (O50). -/

namespace Sys2Proof.Machine

/-! ### One straight micro-operation -/

/-- What a straight micro-operation does before it completes. -/
def UOp.effect (u : UOp) (s : State) : State :=
  match u with
  | .uopen i => openTransport i s
  | .usend pkt => sendEffect pkt s
  | .uwait ms => emit (.delay ms) s
  | .ubaud i => { s with baud := i }
  | .urecv _ | .ureport | .urdlatch => s

/-- `BAUD` after a micro-operation. -/
def UOp.baudAfter (b : BaudIdx) : UOp → BaudIdx
  | .ubaud i => i
  | .uopen _ | .usend _ | .uwait _ | .urecv _ | .ureport | .urdlatch => b

/-- `CUR_BAUD` after a micro-operation. -/
def UOp.curBaudAfter (b : BaudIdx) : UOp → BaudIdx
  | .uopen i => i
  | .ubaud _ | .usend _ | .uwait _ | .urecv _ | .ureport | .urdlatch => b

/-- `OPEN` after a micro-operation. -/
def UOp.opnAfter (opn : Bool) : UOp → Bool
  | .uopen _ => true
  | .ubaud _ | .usend _ | .uwait _ | .urecv _ | .ureport | .urdlatch => opn

/-- What a straight micro-operation leaves unchanged, once it has completed. -/
structure StraightSame (s t : State) : Prop where
  prog : t.prog = s.prog
  rxFifo : t.rxFifo = s.rxFifo
  rxbuf : t.rxbuf = s.rxbuf
  rxres : t.rxres = s.rxres
  intent : t.intent = s.intent
  cmd : t.cmd = s.cmd
  params : t.params = s.params
  err : t.err = s.err
  lasterr : t.lasterr = s.lasterr
  st : t.st = s.st
  rd : t.rd = s.rd
  lst : t.lst = s.lst
  dir : t.dir = s.dir
  timer : t.timer = s.timer

/-- The effect on the registers that a straight micro-operation writes. -/
structure StraightEffect (u : UOp) (s t : State) : Prop extends StraightSame s t where
  trace : t.trace = s.trace ++ straightTrace s.opn [u]
  opn : t.opn = u.opnAfter s.opn
  baud : t.baud = u.baudAfter s.baud
  curBaud : t.curBaud = u.curBaudAfter s.curBaud
  phase : t.phase = s.phase
  upc : t.upc = s.upc
  doneMask : t.doneMask = s.doneMask

section
variable {s t : State}

theorem StraightSame.refl (s : State) : StraightSame s s :=
  ⟨rfl, rfl, rfl, rfl, rfl, rfl, rfl, rfl, rfl, rfl, rfl, rfl, rfl, rfl⟩

theorem StraightSame.trans {u : State} (h : StraightSame s t) (h' : StraightSame t u) :
    StraightSame s u :=
  ⟨h'.prog.trans h.prog, h'.rxFifo.trans h.rxFifo, h'.rxbuf.trans h.rxbuf, h'.rxres.trans h.rxres,
    h'.intent.trans h.intent, h'.cmd.trans h.cmd, h'.params.trans h.params, h'.err.trans h.err,
    h'.lasterr.trans h.lasterr, h'.st.trans h.st, h'.rd.trans h.rd, h'.lst.trans h.lst,
    h'.dir.trans h.dir, h'.timer.trans h.timer⟩

theorem StraightSame.between (h : StraightSame s t) (hs : s.Between) : t.Between :=
  ⟨h.lst.trans hs.1, h.dir.trans hs.2.1, h.timer.trans hs.2.2⟩

theorem straightSame_completeUop (s : State) : StraightSame s (completeUop s) := by
  constructor <;> simp

theorem straightEffect_effect {u : UOp} (h : u.straight = true) (s : State) :
    StraightEffect u s (u.effect s) := by
  cases u with
  | uopen i =>
    rw [UOp.effect, openTransport_eq]
    exact ⟨⟨rfl, rfl, rfl, rfl, rfl, rfl, rfl, rfl, rfl, rfl, rfl, rfl, rfl, rfl⟩, rfl, rfl, rfl, rfl,
      rfl, rfl, rfl⟩
  | usend pkt =>
    refine ⟨⟨rfl, rfl, rfl, rfl, rfl, rfl, rfl, rfl, rfl, rfl, rfl, rfl, rfl, rfl⟩, ?_, rfl, rfl, rfl,
      rfl, rfl, rfl⟩
    simp [UOp.effect, sendEffect, straightTrace]
  | uwait | ubaud =>
    exact ⟨⟨rfl, rfl, rfl, rfl, rfl, rfl, rfl, rfl, rfl, rfl, rfl, rfl, rfl, rfl⟩, by
      simp [UOp.effect, straightTrace], rfl, rfl, rfl, rfl, rfl, rfl⟩
  | urecv | ureport | urdlatch => cases h

/-- A straight micro-operation runs from its beginning to its completion on its inputs. -/
theorem run_straight_uop {u : UOp} {rest : List Input} (hu : u.straight = true)
    (hb : s.busy = true) (hs : s.Between) (hcur : s.currentUop = some u)
    (ho : s.opn = true ∨ ∃ i, u = .uopen i) (hi : s.inbox = u.inputs ++ rest) :
    run u.inputs.length s = .next (completeUop (u.effect { s with inbox := rest })) := by
  have hfetch (q : List Input) : fetchUop { s with inbox := q } = some u :=
    fetchUop_of_current hb hs.1 hs.2.2 hcur
  cases u with
  | uopen i =>
    refine run_one ((step_tick hi).trans (Eq.trans (framerMove_uopen (hfetch rest)) ?_))
    exact execReopen_of_between (by exact hs) i
  | usend pkt => exact run_usend hb hs (ho.resolve_right (by simp)) hcur hi
  | uwait ms =>
    have hbegin : step s = .next (beginWait ms { s with inbox := .tick :: rest }) := by
      refine (step_tick hi).trans (Eq.trans (framerMove_uwait (hfetch _)) ?_)
      exact execWait_of_between (by exact hs) ms
    have hend : step (beginWait ms { s with inbox := .tick :: rest }) = .next
        (completeUop { beginWait ms { s with inbox := rest } with timer := none }) :=
      (step_tick rfl).trans (framerMove_of_timer (by exact hs.1) rfl)
    refine (run_add (run_one hbegin) 1).trans ((run_one hend).trans ?_)
    refine congrArg Host.Outcome.next (congrArg completeUop ?_)
    simp [UOp.effect, beginWait, emit, hs.2.2]
  | ubaud i => exact run_one ((step_tick hi).trans (framerMove_ubaud (hfetch rest)))
  | urecv | ureport | urdlatch => cases hu

/-! ### The remaining program -/

theorem remaining_cons {u : UOp} {us : List UOp} (h : s.remaining = u :: us) :
    s.currentUop = some u ∧ s.upc < s.prog.length ∧
      ((s.prog.drop (s.upc + 1)).map Prod.snd) = us := by
  have hlt : s.upc < s.prog.length := by
    by_contra hge
    rw [State.remaining, List.drop_of_length_le (Nat.le_of_not_lt hge)] at h
    cases h
  rw [State.remaining, List.drop_eq_getElem_cons hlt, List.map_cons] at h
  obtain ⟨hhead, htail⟩ := List.cons.inj h
  refine ⟨?_, hlt, htail⟩
  rw [State.currentUop, List.getElem?_eq_getElem hlt, Option.map_some, hhead]

/-- The `DONE_MASK` bits a program sets as it runs (44_session.md R247): each tag's, where its last
micro-operation stands. -/
def doneBits : List (Seq × UOp) → BitVec 7
  | [] => 0
  | (t, _) :: es => (if es.head?.map Prod.fst = some t then 0 else t.doneBit) ||| doneBits es

theorem doneBits_drop {prog : List (Seq × UOp)} {upc : Nat} (h : upc < prog.length) :
    doneBits (prog.drop upc) = completedBit prog upc ||| doneBits (prog.drop (upc + 1)) := by
  rw [List.drop_eq_getElem_cons h, doneBits, List.head?_drop,
    completedBit_eq (List.getElem?_eq_getElem h)]
  rfl

/-! ### A straight run to the end of the program -/

/-- The state `t` is where `s` comes to when its remaining micro-operations, `us`, have run. -/
structure StraightRun (us : List UOp) (s t : State) : Prop extends StraightSame s t where
  trace : t.trace = s.trace ++ straightTrace s.opn us
  opn : s.opn = true ∨ us ≠ [] → t.opn = true
  baud : t.baud = us.foldl UOp.baudAfter s.baud
  curBaud : t.curBaud = us.foldl UOp.curBaudAfter s.curBaud
  finished : us ≠ [] ∨ (s.phase = .ready ∧ s.upc = s.prog.length) →
    t.phase = .ready ∧ t.upc = s.prog.length
  doneMask : t.doneMask =
    if s.phase = .session then s.doneMask ||| doneBits (s.prog.drop s.upc) else s.doneMask

theorem StraightRun.nil (h : s.remaining = []) : StraightRun [] s s where
  toStraightSame := .refl s
  trace := (List.append_nil _).symm
  opn := fun ho => ho.resolve_right fun hne => hne rfl
  baud := rfl
  curBaud := rfl
  finished := fun hf => hf.resolve_left fun hne => hne rfl
  doneMask := by
    rw [List.map_eq_nil_iff.1 h, doneBits]
    split
    · exact BitVec.or_zero.symm
    · rfl

theorem straightTrace_cons {u : UOp} (hu : u.straight = true) (opn : Bool) (us : List UOp) :
    straightTrace opn (u :: us) = straightTrace opn [u] ++ straightTrace (u.opnAfter opn) us := by
  cases u with
  | uopen | usend | uwait | ubaud => simp [straightTrace, UOp.opnAfter]
  | urecv | ureport | urdlatch => cases hu

/-- Where a straight micro-operation leaves the program counter. -/
theorem counter_completeUop_effect {u : UOp} (hu : u.straight = true) (hb : s.busy = true)
    (hlt : s.upc < s.prog.length) :
    (completeUop (u.effect s)).prog = s.prog ∧ (completeUop (u.effect s)).upc = s.upc + 1 ∧
      (completeUop (u.effect s)).phase = (if s.upc + 1 = s.prog.length then .ready else s.phase) ∧
      (completeUop (u.effect s)).doneMask =
        (if s.phase = .session then s.doneMask ||| completedBit s.prog s.upc else s.doneMask) := by
  have he := straightEffect_effect hu s
  have hb' : (u.effect s).busy = true := by rw [State.busy, he.phase]; exact hb
  rw [completeUop_running hb' (by rw [he.upc, he.prog]; exact hlt), he.upc, he.prog, he.phase,
    he.doneMask]
  exact ⟨rfl, rfl, rfl, rfl⟩

theorem ne_length_of_remaining {us : List UOp} (hne : us ≠ [])
    (h : ((s.prog.drop (s.upc + 1)).map Prod.snd) = us) : s.upc + 1 ≠ s.prog.length := by
  rintro hlast
  rw [hlast, List.drop_length] at h
  exact hne h.symm

/-- A straight micro-operation before a straight run. -/
theorem StraightRun.cons {u : UOp} {us : List UOp} {v : State} (hu : u.straight = true)
    (hb : s.busy = true) (hrem : s.remaining = u :: us) (ho : u.opnAfter s.opn = true)
    (h : StraightRun us (completeUop (u.effect s)) v) : StraightRun (u :: us) s v := by
  obtain ⟨_, hlt, htail⟩ := remaining_cons hrem
  have he := straightEffect_effect hu s
  obtain ⟨hprog, hupc, hphase, hdone⟩ := counter_completeUop_effect hu hb hlt
  obtain ⟨hsame, htrace, hopn, hbaud, hcur, hfin, hmask⟩ := h
  rw [completeUop_trace, completeUop_opn, he.trace, he.opn, List.append_assoc,
    ← straightTrace_cons hu] at htrace
  rw [completeUop_baud, he.baud] at hbaud
  rw [completeUop_curBaud, he.curBaud] at hcur
  rw [hprog, hupc, hphase] at hfin
  rw [hprog, hupc, hphase, hdone] at hmask
  refine ⟨(he.toStraightSame.trans (straightSame_completeUop _)).trans hsame, htrace,
    fun _ => hopn (.inl ((completeUop_opn _).trans (he.opn.trans ho))), hbaud, hcur, fun _ => ?_, ?_⟩
  · refine hfin ?_
    by_cases hlast : s.upc + 1 = s.prog.length
    · exact .inr ⟨if_pos hlast, hlast⟩
    · refine .inl fun hnil => hlast ?_
      rw [hnil, List.map_eq_nil_iff, List.drop_eq_nil_iff] at htail
      omega
  · rw [hmask, doneBits_drop hlt]
    by_cases hlast : s.upc + 1 = s.prog.length
    · simp [hlast, doneBits]
    · by_cases hp : s.phase = .session <;> simp [hlast, hp, BitVec.or_assoc]

/-- A straight program runs to its end on the inputs of its micro-operations. -/
theorem run_straight {us : List UOp} {rest : List Input} (hb : us ≠ [] → s.busy = true)
    (hs : s.Between) (hrem : s.remaining = us) (hus : ∀ u ∈ us, u.straight = true)
    (ho : s.opn = true ∨ us = [] ∨ ∃ i vs, us = .uopen i :: vs)
    (hi : s.inbox = us.flatMap UOp.inputs ++ rest) :
    ∃ t, run (us.flatMap UOp.inputs).length s = .next t ∧ t.inbox = rest ∧ StraightRun us s t := by
  induction us generalizing s with
  | nil => exact ⟨s, rfl, hi, .nil hrem⟩
  | cons u us ih =>
    obtain ⟨hu, hus⟩ := List.forall_mem_cons.1 hus
    obtain ⟨hcur, hlt, htail⟩ := remaining_cons hrem
    have hbusy := hb (List.cons_ne_nil u us)
    rw [List.flatMap_cons, List.append_assoc] at hi
    have hopen : s.opn = true ∨ ∃ i, u = .uopen i := by
      obtain ho | hnil | ⟨i, _, hcons⟩ := ho
      · exact .inl ho
      · cases hnil
      · exact .inr ⟨i, (List.cons.inj hcons).1⟩
    have hopn : u.opnAfter s.opn = true := by
      obtain ho | ⟨i, rfl⟩ := hopen
      · rw [ho]
        cases u <;> rfl
      · rfl
    let begun : State := { s with inbox := us.flatMap UOp.inputs ++ rest }
    have he := straightEffect_effect hu begun
    obtain ⟨hprog, hupc, hphase, _⟩ := counter_completeUop_effect (s := begun) hu hbusy hlt
    obtain ⟨t, hrun, hinbox, hstraight⟩ := ih (s := completeUop (u.effect begun))
      (fun hne => by
        rw [State.busy, hphase, if_neg (ne_length_of_remaining hne htail)]
        exact hbusy)
      ((straightSame_completeUop _).between (he.toStraightSame.between hs))
      (by rw [State.remaining, hprog, hupc]; exact htail) hus
      (.inl ((completeUop_opn _).trans (he.opn.trans hopn)))
      (by
        rw [completeUop_inbox]
        cases u with
        | uopen => rw [UOp.effect, openTransport_eq]
        | usend | uwait | ubaud => rfl
        | urecv | ureport | urdlatch => cases hu)
    refine ⟨t, ?_, hinbox, { __ := StraightRun.cons (s := begun) hu hbusy hrem hopn hstraight }⟩
    rw [List.flatMap_cons, List.length_append, run_add (run_straight_uop hu hbusy hs hcur hopen hi)]
    exact hrun

end

/-- Settles O48: the remaining micro-operations are a straight program. -/
theorem straightProgramTrace : Obligations.StraightProgramTrace := by
  intro s rest hb hs hne hus ho hi
  obtain ⟨t, hrun, hinbox, h⟩ := run_straight (fun _ => hb) hs rfl hus (ho.imp_right .inr) hi
  obtain ⟨hready, hend⟩ := h.finished (.inl hne)
  exact ⟨t, hrun, h.trace, hready, hend, h.prog, h.between hs, h.opn (.inr hne), hinbox, h.rxFifo,
    h.rxbuf, h.rxres, h.intent, h.cmd, h.params, h.err, h.lasterr, h.st, h.rd⟩

/-! ### Commands -/

/-- The micro-operation sends a frame or waits. -/
def UOp.sendsOrWaits : UOp → Bool
  | .usend _ | .uwait _ => true
  | .uopen _ | .ubaud _ | .urecv _ | .ureport | .urdlatch => false

section
variable {us : List UOp}

theorem straight_of_sendsOrWaits (h : ∀ u ∈ us, u.sendsOrWaits = true) :
    ∀ u ∈ us, u.straight = true := by
  intro u hu
  have hsw := h u hu
  cases u <;> first | rfl | cases hsw

/-- Sending and waiting leave `BAUD` and `CUR_BAUD`. -/
theorem foldl_baudAfter_of_sendsOrWaits (h : ∀ u ∈ us, u.sendsOrWaits = true) (b : BaudIdx) :
    us.foldl UOp.baudAfter b = b ∧ us.foldl UOp.curBaudAfter b = b := by
  induction us with
  | nil => exact ⟨rfl, rfl⟩
  | cons u us ih =>
    obtain ⟨hu, hus⟩ := List.forall_mem_cons.1 h
    cases u with
    | usend | uwait => exact ih hus
    | uopen | ubaud | urecv | ureport | urdlatch => cases hu

/-- The trace of frames and windows, as any function gives it that lists them so. -/
theorem straightTrace_of_sendsOrWaits {events : UOp → List OutEvent}
    (h : ∀ u ∈ us, u.sendsOrWaits = true) (hsend : ∀ pkt, events (.usend pkt) = frameEvents pkt)
    (hwait : ∀ ms, events (.uwait ms) = [.delay ms]) (opn : Bool) :
    straightTrace opn us = us.flatMap events := by
  induction us with
  | nil => rfl
  | cons u us ih =>
    obtain ⟨hu, hus⟩ := List.forall_mem_cons.1 h
    cases u with
    | usend => rw [straightTrace, List.flatMap_cons, hsend, ih hus]
    | uwait => rw [straightTrace, List.flatMap_cons, hwait, ih hus]; rfl
    | uopen | ubaud | urecv | ureport | urdlatch => cases hu

end

/-- A command that passes its tests, is no read and loads the program `ops` of frames and windows. -/
structure WireCommand (s : State) (i : Instr) (ops : List UOp) (c : CmdCall) : Prop where
  call : commandCall s i = some c
  prog : c.prog = ops
  id : validId c.id = true
  inRange : c.inRange = true
  lengthOk : c.lengthOk = true
  not_read : c.op.isRead = false
  sendsOrWaits : ∀ u ∈ ops, u.sendsOrWaits = true

/-- An accepted command's frames and windows, from its acceptance to `P_READY`. -/
theorem WireCommand.run {s : State} {i : Instr} {ops : List UOp} {c : CmdCall} {rest : List Input}
    (h : WireCommand s i ops c) (hp : s.phase = .ready) (hs : s.Between) (ho : s.opn = true)
    (hi : s.inbox = ops.flatMap UOp.inputs ++ rest) :
    ∃ t, exec i s = .next (acceptCmd c s) ∧
      run (ops.flatMap UOp.inputs).length (acceptCmd c s) = .next t ∧ t.inbox = rest ∧
      StraightRun ops (acceptCmd c s) t := by
  have hrem : (acceptCmd c s).remaining = ops := by
    rw [← h.prog]
    simp [State.remaining, Function.comp_def]
  obtain ⟨t, hrun, hinbox, hstraight⟩ := run_straight (s := acceptCmd c s) (fun _ => rfl) hs hrem
    (straight_of_sendsOrWaits h.sendsOrWaits) (.inl ho) hi
  exact ⟨t, exec_accepted h.call hp h.id h.inRange h.lengthOk, hrun, hinbox, hstraight⟩

/-- Settles O49: each command makes a call whose program is its frames and windows, and that program is
straight. -/
theorem commandsReachTheWire : Obligations.CommandsReachTheWire := by
  intro s i events rest ops hp hs ho hwf hops hevents hi
  let called : State := { s with inbox := ops.flatMap UOp.inputs ++ rest }
  obtain ⟨c, hc⟩ : ∃ c, WireCommand called i ops c := by
    cases i with
    | romcommit | reboot | persist | freset =>
      cases hops
      exact ⟨_, rfl, rfl, hwf, rfl, rfl, rfl, List.all_eq_true.1 rfl⟩
    | setid | setrev | setbaud | setdelay | torque | move =>
      cases hops
      simp only [Instr.wf, Bool.and_eq_true] at hwf
      exact ⟨_, rfl, rfl, hwf.1, hwf.2, rfl, rfl, List.all_eq_true.1 rfl⟩
    | write =>
      cases hops
      simp only [Instr.wf, Bool.and_eq_true] at hwf
      exact ⟨_, rfl, rfl, hwf.1, rfl, hwf.2, rfl, List.all_eq_true.1 rfl⟩
    | rdstat | rdangle | read | response | xsum | encode | decode | reopen | send | receive | wait
    | sweep | session => cases hops
  obtain ⟨t, hexec, hrun, hinbox, h⟩ := hc.run (s := called) hp hs ho rfl
  have hstep : step s = .next (acceptCmd c called) :=
    (step_cmd hi (isCommand_of_commandCall hc.call)).trans hexec
  have hne : ops ≠ [] := hc.prog ▸ prog_ne_nil_of_commandCall hc.call
  obtain ⟨hbaud, hcur⟩ := foldl_baudAfter_of_sendsOrWaits hc.sendsOrWaits s.baud
  obtain ⟨_, hcur⟩ := foldl_baudAfter_of_sendsOrWaits hc.sendsOrWaits s.curBaud
  have htrace : t.trace = s.trace ++ events := by
    rw [hevents]
    refine h.trace.trans (congrArg (s.trace ++ ·) ?_)
    exact straightTrace_of_sendsOrWaits hc.sendsOrWaits (fun _ => rfl) (fun _ => rfl) _
  refine ⟨t, (run_add (run_one hstep) _).trans hrun, htrace, (h.finished (.inl hne)).1, hinbox,
    h.between hs, h.rxFifo, h.doneMask, h.err, h.lasterr, h.baud.trans hbaud, h.curBaud.trans hcur,
    h.opn (.inl ho), ?_⟩
  rw [h.rd, acceptCmd_rd, hc.not_read]
  rfl

/-! ### Sessions -/

theorem foldl_ite_nil {α β : Type} (f : β → α → β) (b : β) (q : Prop) [Decidable q] (l : List α) :
    (if q then l else []).foldl f b = if q then l.foldl f b else b := by
  split <;> rfl

/-- A session ends with `BAUD` at the target, or at the default after a factory reset. -/
theorem baud_of_sessionOps (p : Params) (c : Intent) (b : BaudIdx) :
    (sessionOps p c).foldl UOp.baudAfter b = if c.reset then 7 else b := by
  have hsweep (t b : BaudIdx) : (sweepOps p t).foldl UOp.baudAfter b = b := rfl
  have hreset (b : BaudIdx) : (factoryResetOps p).foldl UOp.baudAfter b = 7 := rfl
  have hwrite (addr v : Byte) (b : BaudIdx) :
      (persistedWrite p addr v).foldl UOp.baudAfter b = b := rfl
  have htorque (b : BaudIdx) :
      (writeProgram broadcastId aTorque 1 [1]).foldl UOp.baudAfter b = b := rfl
  have hstatus (b : BaudIdx) : (statusReportOps p).foldl UOp.baudAfter b = b := rfl
  have hopen (t b : BaudIdx) : [UOp.uopen t].foldl UOp.baudAfter b = b := rfl
  simp only [sessionOps, List.foldl_append, foldl_ite_nil, hsweep, hreset, hwrite, htorque, hstatus,
    hopen, ite_self]

/-- A session ends with the Transport open at the target, or at the default after a factory reset. -/
theorem curBaud_of_sessionOps (p : Params) (c : Intent) (b : BaudIdx) :
    (sessionOps p c).foldl UOp.curBaudAfter b = if c.reset then 7 else baudIdxOf c.tbaud := by
  have hreset (b : BaudIdx) : (factoryResetOps p).foldl UOp.curBaudAfter b = 7 := rfl
  have hwrite (addr v : Byte) (b : BaudIdx) :
      (persistedWrite p addr v).foldl UOp.curBaudAfter b = b := rfl
  have htorque (b : BaudIdx) :
      (writeProgram broadcastId aTorque 1 [1]).foldl UOp.curBaudAfter b = b := rfl
  have hstatus (b : BaudIdx) : (statusReportOps p).foldl UOp.curBaudAfter b = b := rfl
  have hopen (t b : BaudIdx) : [UOp.uopen t].foldl UOp.curBaudAfter b = t := rfl
  simp only [sessionOps, List.foldl_append, foldl_ite_nil, hreset, hwrite, htorque, hstatus, hopen,
    ite_self]

/-- A step before later steps adds the bit of its tag, if it is there. -/
theorem doneBits_tagged_append {t : Seq} (us : List UOp) {l : List (Seq × UOp)}
    (h : AscendFrom (t.number + 1) l) :
    doneBits (tagged t us ++ l) = (if us = [] then 0 else t.doneBit) ||| doneBits l := by
  have hhead : l.head?.map Prod.fst ≠ some t := by
    cases l with
    | nil => simp
    | cons e l =>
      intro he
      obtain ⟨hlow, _⟩ := h.bounds e (List.mem_cons_self ..)
      rw [Option.some.inj he] at hlow
      omega
  induction us with
  | nil => exact BitVec.zero_or.symm
  | cons u us ih =>
    change doneBits ((t, u) :: (tagged t us ++ l)) = _
    rw [doneBits, ih]
    cases us with
    | nil => simp [tagged, hhead]
    | cons v us => simp [tagged]

theorem ite_ite_nil_eq_nil {α : Type} {w : Nat} (q : Prop) [Decidable q] {l : List α} (hl : l ≠ [])
    (b : BitVec w) : (if (if q then l else []) = [] then 0 else b) = if q then b else 0 := by
  by_cases hq : q <;> simp [hq, hl]

theorem AscendFrom.doneBits_step (t : Seq) (us : List UOp) {l : List (Seq × UOp)} {m : BitVec 7}
    (ht : t.number ≤ 8) (h : AscendFrom (t.number + 1) l ∧ doneBits l = m) :
    AscendFrom t.number (tagged t us ++ l) ∧
      doneBits (tagged t us ++ l) = (if us = [] then 0 else t.doneBit) ||| m :=
  ⟨h.1.tagged_append ht, by rw [doneBits_tagged_append us h.1, h.2]⟩

theorem sweepOps_ne_nil (p : Params) (target : BaudIdx) : sweepOps p target ≠ [] :=
  List.ne_nil_of_length_eq_add_one (length_sweepOps p target)

theorem persistedWrite_ne_nil (p : Params) (addr v : Byte) : persistedWrite p addr v ≠ [] :=
  List.cons_ne_nil _ _

theorem factoryResetOps_ne_nil (p : Params) : factoryResetOps p ≠ [] := List.cons_ne_nil _ _

/-- The bits of the steps the intent asks for; `BaudOpen` and `StatusReport` have none of their own. -/
theorem doneBits_sessionProgram (p : Params) (c : Intent) :
    doneBits (sessionProgram p c) =
      (if c.sweep then 0b0000001 else 0) ||| (if c.reset then 0b0000010 else 0) |||
        (if c.newid ≠ 0 then 0b0000100 else 0) ||| (if c.delay.toNat ≤ 127 then 0b0001000 else 0) |||
        (if c.rot.toNat ≤ 1 then 0b0010000 else 0) ||| 0b0100000 := by
  rw [sessionProgram_eq_tagged]
  refine (AscendFrom.doneBits_step .recoverySweep _ (by decide) <|
    AscendFrom.doneBits_step .baudOpen _ (by decide) <|
    AscendFrom.doneBits_step .factoryReset _ (by decide) <|
    AscendFrom.doneBits_step .setID _ (by decide) <|
    AscendFrom.doneBits_step .setReplyDelay _ (by decide) <|
    AscendFrom.doneBits_step .setRotationSense _ (by decide) <|
    AscendFrom.doneBits_step .torqueEnable _ (by decide) <|
    AscendFrom.doneBits_step .statusReport _ (by decide) ⟨.nil 9, rfl⟩).2.trans ?_
  rw [ite_ite_nil_eq_nil _ (sweepOps_ne_nil _ _), ite_ite_nil_eq_nil _ (factoryResetOps_ne_nil p),
    ite_ite_nil_eq_nil _ (persistedWrite_ne_nil _ _ _), ite_ite_nil_eq_nil _ (persistedWrite_ne_nil _ _ _),
    ite_ite_nil_eq_nil _ (persistedWrite_ne_nil _ _ _)]
  simp [Seq.doneBit, writeProgram, doneBits, BitVec.or_assoc]

theorem seq_of_ready {s : State} (h : s.phase = .ready) : s.seq = .done :=
  seq_of_ready_or_cmd (.inl h)

/-- Settles O50: a session without a status read is a straight program that begins with a `uOPEN`. -/
theorem sessionRunsToDone : Obligations.SessionRunsToDone := by
  intro s c rest hp hs ho hv hstatus hi
  rw [map_snd_sessionProgram] at hi ⊢
  let begun : State := { s with inbox := (sessionOps s.params c).flatMap UOp.inputs ++ rest }
  have hstep : step s = .next (acceptStart c begun) :=
    (step_start hi).trans (execSession_of_intentValid (s := begun) hp hv)
  obtain ⟨i, hhead⟩ := currentUop_acceptStart c begun
  have hrem : (acceptStart c begun).remaining = sessionOps s.params c :=
    map_snd_sessionProgram s.params c
  have hfirst : ∃ i us, sessionOps s.params c = .uopen i :: us := by
    rw [currentUop_eq, acceptStart_prog, map_snd_sessionProgram] at hhead
    cases hops : sessionOps s.params c with
    | nil => simp [begun, hops] at hhead
    | cons u us => exact ⟨i, us, by simpa [begun, hops] using hhead⟩
  obtain ⟨t, hrun, hinbox, h⟩ := run_straight (s := acceptStart c begun) (fun _ => rfl) hs hrem
    (straight_sessionOps hstatus) (.inr (.inr hfirst)) rfl
  have hne : sessionOps s.params c ≠ [] := by
    obtain ⟨_, _, hcons⟩ := hfirst
    simp [hcons]
  obtain ⟨hready, _⟩ := h.finished (.inl hne)
  have hbaud : t.baud = if c.reset then 7 else baudIdxOf c.tbaud :=
    h.baud.trans (baud_of_sessionOps ..)
  have hcur : t.curBaud = if c.reset then 7 else baudIdxOf c.tbaud :=
    h.curBaud.trans (curBaud_of_sessionOps ..)
  obtain ⟨htbaud, _⟩ := (intentValid_iff c).1 hv
  refine ⟨t, (run_add (run_one hstep) _).trans hrun, hready, seq_of_ready hready, ?_, hinbox, h.rxFifo,
    ?_, h.intent, h.opn (.inr hne), hcur.trans hbaud.symm, h.dir.trans hs.2.1, h.err, ?_, ?_⟩
  · simp [State.busy, hready]
  · rw [← ho]
    exact h.trace
  · rw [hbaud]
    split
    · rfl
    · exact val_baudIdxOf htbaud
  · refine h.doneMask.trans ((if_pos rfl).trans ?_)
    simp only [acceptStart_prog, acceptStart_upc, acceptStart_doneMask, List.drop_zero,
      doneBits_sessionProgram, BitVec.or_assoc]
    rfl

end Sys2Proof.Machine
end
